-- ==== Sys2Proof/Word.lean ====
section
/-! DEFINITION. The word types of the block (spec/00_scope.md rule R7) and nothing else: every helper that
computes something (sign extension, shifts, clamps, bit fields) stands in Decode.lean or under Machine/. -/

namespace Sys2Proof

/-- `u8`: one byte of the sample memory or of an ADPCM block. -/
abbrev Byte := BitVec 8

/-- `u16`: a register or a data operand. -/
abbrev U16 := BitVec 16

/-- `i16`: the same sixteen bits, read as a two's-complement number (`BitVec.toInt`). -/
abbrev I16 := BitVec 16

/-- A host command, 64 bits (R92). -/
abbrev CmdWord := BitVec 64

/-- `NVOICES` (R5). -/
abbrev NVOICES : Nat := 24

/-- `RAM_BYTES` (R5): 512 KiB of sample memory. -/
abbrev RAM_BYTES : Nat := 524288

/-- `BLOCK_SAMPLES` (R5): samples decoded from one ADPCM block. -/
abbrev BLOCK_SAMPLES : Nat := 28

end Sys2Proof
end

