-- ==== Sys2Proof/Config.lean ====
section
/-! DEFINITION. The parameters the source leaves open (spec/00_scope.md rule R6): the type of a parameter set, with one
field for each row of R6's table, and the one parameter that has no default, as a constant without a body. The default
tables stand in Machine/Tables.lean, the default conversion in Machine/Float.lean. -/

namespace Sys2Proof.Config

/-- One entry of `REVERB_PRESETS` (R6, R244): the 32 reverb registers and the length of the circular region. -/
structure Preset where
  reg : Vector U16 32
  len : Nat
  deriving DecidableEq, Repr, Inhabited

/-- A value for every parameter of R6. Every operation that uses one takes the set as an argument; `stepWith` is the
machine with a given set, `step` the machine with the defaults (`Machine.params`). -/
structure Params where
  /-- `FILTER_POS[0..4]`, applied to `prev1`, in units of 1/64 (R114). -/
  filterPos : Nat → Int
  /-- `FILTER_NEG[0..4]`, applied to `prev2`, in units of 1/64 (R114). -/
  filterNeg : Nat → Int
  /-- `SHIFT_FALLBACK`, 0 to 12: what a header shift of 13, 14 or 15 acts as (R83). -/
  shiftFallback : Fin 13
  /-- `GAUSS[0..511]` (R136). -/
  gauss : Nat → Int
  /-- `FIR39[0..38]` (R203). -/
  fir39 : Nat → Int
  /-- `REVERB_PRESETS` (R213, R244). -/
  reverbPresets : List Preset
  /-- `REVBUF_MAX`: capacity of the reverb buffer in halfwords. -/
  revbufMax : Nat
  /-- `toF32` (R196): the conversion of an exact output to the bits of an IEEE 754 binary32. -/
  toF32 : Rat → BitVec 32

/-- `REVERB_PRESETS` (R6, R213; decision D35): OPEN, no default. The spec prints no preset, on its source's
instruction, so the list the default machine runs with is a constant of the implementation about which nothing can be
proved but that it is a finite list. FREE VALUE, notes/assumptions/4.md. Safe. -/
opaque reverbPresets : List Preset

end Sys2Proof.Config
end

