-- ==== Sys2Proof/Syntax.lean ====
section
/-! DEFINITION. The instructions: one constructor per row of spec/opcode_table.json. Twenty-one rows are host commands
(format CMD64, spec/46_commands.md). The other thirteen are the words the pipeline reads and acts on by itself inside a
TICK: the header byte of an ADPCM block (ADPCM_HDR, R82, R112), its flags byte (ADPCM_FLAGS, R84, R138) and the two
envelope words (REG16, R88, R89). A pipeline word belongs to one of the 24 voices, its LANE: the header and flags bytes are read
through `cur_addr[v]`, the envelope words are the contents of `adsr1[v]` and `adsr2[v]` (notes/assumptions/2.md). -/

namespace Sys2Proof

inductive Instr where
  /-- R232. -/
  | nop
  /-- R231. -/
  | tick
  /-- R233. -/
  | keyOn (idx : Byte)
  /-- R234. -/
  | keyOff (idx : Byte)
  /-- R235. -/
  | allKeyOff
  /-- R236. -/
  | setStart (idx : Byte) (data : U16)
  /-- R237. -/
  | setPitch (idx : Byte) (data : U16)
  /-- R238. -/
  | setAdsr1 (idx : Byte) (data : U16)
  /-- R239. -/
  | setAdsr2 (idx : Byte) (data : U16)
  /-- R240. -/
  | setVolL (idx : Byte) (data : U16)
  /-- R241. -/
  | setVolR (idx : Byte) (data : U16)
  /-- R242. -/
  | setReverbEn (idx : Byte) (data : U16)
  /-- R243. -/
  | revWrite (idx : Byte) (data : U16)
  /-- R244. -/
  | revPreset (idx : Byte)
  /-- R245. -/
  | revClear
  /-- R246. -/
  | setWet (data : U16)
  /-- R247. -/
  | setMaster (data : U16)
  /-- R248. -/
  | memWr8 (addr : BitVec 32) (data : U16)
  /-- R249. -/
  | memWr16 (addr : BitVec 32) (data : U16)
  /-- R250. -/
  | memRd8 (addr : BitVec 32)
  /-- R251. -/
  | memRd16 (addr : BitVec 32)
  /-- Header byte with `filter_raw = 0` (R82, R112): bit 7 (ignored) and `shift_raw`. -/
  | adpcmHdrF0 (lane : Fin 24) (bit7 : Bool) (shift : BitVec 4)
  /-- Header byte with `filter_raw = 1`. -/
  | adpcmHdrF1 (lane : Fin 24) (bit7 : Bool) (shift : BitVec 4)
  /-- Header byte with `filter_raw = 2`. -/
  | adpcmHdrF2 (lane : Fin 24) (bit7 : Bool) (shift : BitVec 4)
  /-- Header byte with `filter_raw = 3`. -/
  | adpcmHdrF3 (lane : Fin 24) (bit7 : Bool) (shift : BitVec 4)
  /-- Header byte with `filter_raw = 4`. -/
  | adpcmHdrF4 (lane : Fin 24) (bit7 : Bool) (shift : BitVec 4)
  /-- Header byte with `filter_raw = 5`, which acts as filter 4 (R83). -/
  | adpcmHdrF5 (lane : Fin 24) (bit7 : Bool) (shift : BitVec 4)
  /-- Header byte with `filter_raw = 6`, which acts as filter 4 (R83). -/
  | adpcmHdrF6 (lane : Fin 24) (bit7 : Bool) (shift : BitVec 4)
  /-- Header byte with `filter_raw = 7`, which acts as filter 4 (R83). -/
  | adpcmHdrF7 (lane : Fin 24) (bit7 : Bool) (shift : BitVec 4)
  /-- Flags byte with loop-end clear (R84, R138): bits 7:3 (ignored), loop-start and loop-repeat. -/
  | adpcmFlagsContinue (lane : Fin 24) (ignored : BitVec 5) (loopStart loopRepeat : Bool)
  /-- Flags byte with loop-end and loop-repeat set. -/
  | adpcmFlagsLoop (lane : Fin 24) (ignored : BitVec 5) (loopStart : Bool)
  /-- Flags byte with loop-end set and loop-repeat clear. -/
  | adpcmFlagsStop (lane : Fin 24) (ignored : BitVec 5) (loopStart : Bool)
  /-- The first envelope word (R88). -/
  | adsr1Word (lane : Fin 24) (attackExp : Bool) (attackShift : BitVec 5) (attackStep : BitVec 2)
      (decayShift sustainLevel : BitVec 4)
  /-- The second envelope word (R89); `unused` is bit 13, which has no field and is stored all the same. -/
  | adsr2Word (lane : Fin 24) (sustainExp sustainDec unused : Bool) (sustainShift : BitVec 5)
      (sustainStep : BitVec 2) (releaseExp : Bool) (releaseShift : BitVec 5)
  deriving DecidableEq, Repr

/-- What arrives at the input port: a host command (R92), or a pipeline word in a voice's lane. -/
inductive Item where
  /-- Format CMD64: one 64-bit command word. -/
  | cmd (w : CmdWord)
  /-- Format ADPCM_HDR: a header byte read by the voice `lane`. -/
  | hdr (lane : Fin 24) (b : Byte)
  /-- Format ADPCM_FLAGS: a flags byte read by the voice `lane`. -/
  | flags (lane : Fin 24) (b : Byte)
  /-- Format REG16, row ADSR1_WORD. -/
  | adsr1 (lane : Fin 24) (w : U16)
  /-- Format REG16, row ADSR2_WORD. -/
  | adsr2 (lane : Fin 24) (w : U16)
  deriving DecidableEq, Repr

end Sys2Proof
end

