-- ==== Sys2Proof/WellFormed.lean ====
section
/-! DEFINITION. Which items stand for an instruction. Every operand of an `Instr` is as wide as its field, every value of
it is legal (R82 to R84, R88, R89, R96, R252) and the lane of a pipeline word is one of the 24 voices by its type, so
every term of `Instr` is well formed; what can be ill formed is a command word, whose opcode may be reserved (R95). -/

namespace Sys2Proof

/-- The opcodes of R94. -/
def opcodes : List Nat :=
  [0x00, 0x01, 0x10, 0x11, 0x12, 0x20, 0x21, 0x22, 0x23, 0x24, 0x25, 0x26, 0x30, 0x31, 0x32, 0x38, 0x39, 0x40, 0x41,
   0x42, 0x43]

/-- A command word needs an opcode of R94 in bits 63:56; every byte and every envelope word is legal (R83, R84, R89). -/
def Item.wf : Item → Bool
  | .cmd w => opcodes.contains (w.extractLsb' 56 8).toNat
  | .hdr _ _ | .flags _ _ | .adsr1 _ _ | .adsr2 _ _ => true

end Sys2Proof
end

