-- ==== Sys2Proof/Decode.lean ====
section
/-! DEFINITION. The encodings of spec/30_encoding.md: the fields of the command word, of the two control bytes of an
ADPCM block and of the two envelope words; the decoder, total on every item and rejecting by name; the encoder, written
from the same tables; and `decodeTableWord`, which reads a word as spec/opcode_table.json numbers it. -/

namespace Sys2Proof

/-! ### Fields of the command word (R92) -/

/-- `op`, bits 63:56. -/
def cmdOp (w : CmdWord) : Byte := w.extractLsb' 56 8

/-- `idx`, bits 55:48. -/
def cmdIdx (w : CmdWord) : Byte := w.extractLsb' 48 8

/-- `data`, bits 47:32. -/
def cmdData (w : CmdWord) : U16 := w.extractLsb' 32 16

/-- `addr`, bits 31:0. -/
def cmdAddr (w : CmdWord) : BitVec 32 := w.extractLsb' 0 32

/-- The command word with the four fields of R92. -/
def cmdWord (op idx : Byte) (data : U16) (addr : BitVec 32) : CmdWord := op ++ idx ++ data ++ addr

/-! ### The control bytes of an ADPCM block (R82, R84). The bit positions are PRESUMED (93 item G3), kept behind these
accessors so that another layout can be put in their place. -/

/-- `filter_raw`, header bits 6:4. -/
def headerFilter (b : Byte) : BitVec 3 := b.extractLsb' 4 3

/-- `shift_raw`, header bits 3:0. -/
def headerShift (b : Byte) : BitVec 4 := b.extractLsb' 0 4

/-- The header byte with ignored bit 7, `filter_raw` and `shift_raw`. -/
def headerByte (bit7 : Bool) (filter : BitVec 3) (shift : BitVec 4) : Byte :=
  BitVec.ofBool bit7 ++ filter ++ shift

/-- Flags byte bits 2:0: loop-start, loop-repeat, loop-end. -/
def flagsField (b : Byte) : BitVec 3 := b.extractLsb' 0 3

/-- The flags byte with ignored bits 7:3. -/
def flagsByte (ignored : BitVec 5) (loopStart loopRepeat loopEnd : Bool) : Byte :=
  ignored ++ BitVec.ofBool loopStart ++ BitVec.ofBool loopRepeat ++ BitVec.ofBool loopEnd

/-! ### The envelope words (R88, R89). Positions PRESUMED (93 item G5). -/

def attackExp (w : U16) : Bool := w.getLsbD 15
def attackShift (w : U16) : BitVec 5 := w.extractLsb' 10 5
def attackStep (w : U16) : BitVec 2 := w.extractLsb' 8 2
def decayShift (w : U16) : BitVec 4 := w.extractLsb' 4 4
def sustainLevel (w : U16) : BitVec 4 := w.extractLsb' 0 4
def sustainExp (w : U16) : Bool := w.getLsbD 15
def sustainDec (w : U16) : Bool := w.getLsbD 14
def adsr2Unused (w : U16) : Bool := w.getLsbD 13
def sustainShift (w : U16) : BitVec 5 := w.extractLsb' 8 5
def sustainStep (w : U16) : BitVec 2 := w.extractLsb' 6 2
def releaseExp (w : U16) : Bool := w.getLsbD 5
def releaseShift (w : U16) : BitVec 5 := w.extractLsb' 0 5

/-- ADSR1 from its fields (R88). -/
def packAdsr1 (attackExp : Bool) (attackShift : BitVec 5) (attackStep : BitVec 2)
    (decayShift sustainLevel : BitVec 4) : U16 :=
  BitVec.ofBool attackExp ++ attackShift ++ attackStep ++ decayShift ++ sustainLevel

/-- ADSR2 from its fields and the field-less bit 13 (R89). -/
def packAdsr2 (sustainExp sustainDec unused : Bool) (sustainShift : BitVec 5) (sustainStep : BitVec 2)
    (releaseExp : Bool) (releaseShift : BitVec 5) : U16 :=
  BitVec.ofBool sustainExp ++ BitVec.ofBool sustainDec ++ BitVec.ofBool unused ++ sustainShift ++
    sustainStep ++ BitVec.ofBool releaseExp ++ releaseShift

/-- `AdsrParams` (R87): the envelope parameters of a voice, one field for each field of the two words. -/
structure AdsrParams where
  attackExp : Bool
  attackShift : BitVec 5
  attackStep : BitVec 2
  decayShift : BitVec 4
  sustainLevel : BitVec 4
  sustainExp : Bool
  sustainDec : Bool
  sustainShift : BitVec 5
  sustainStep : BitVec 2
  releaseExp : Bool
  releaseShift : BitVec 5
  deriving DecidableEq, Repr

/-- The parameters that two envelope words hold (R87, R88, R89): bit 13 of ADSR2 is in none of them. -/
def unpackAdsr (adsr1 adsr2 : U16) : AdsrParams :=
  { attackExp := attackExp adsr1, attackShift := attackShift adsr1, attackStep := attackStep adsr1
    decayShift := decayShift adsr1, sustainLevel := sustainLevel adsr1
    sustainExp := sustainExp adsr2, sustainDec := sustainDec adsr2, sustainShift := sustainShift adsr2
    sustainStep := sustainStep adsr2, releaseExp := releaseExp adsr2, releaseShift := releaseShift adsr2 }

/-- The two envelope words of a parameter set, bit 13 of ADSR2 being 0 (R87). -/
def packAdsr (a : AdsrParams) : U16 × U16 :=
  (packAdsr1 a.attackExp a.attackShift a.attackStep a.decayShift a.sustainLevel,
    packAdsr2 a.sustainExp a.sustainDec false a.sustainShift a.sustainStep a.releaseExp a.releaseShift)

/-! ### Decoding -/

/-- Why an item is no instruction. -/
inductive DecodeError where
  /-- `op` is not in the opcode map of R94 (R95, R303). -/
  | reservedOpcode (op : Byte)
  deriving DecidableEq, Repr

/-- The opcode map of R94. Unused fields are ignored (R97). -/
def decodeCmd (w : CmdWord) : Except DecodeError Instr :=
  match (cmdOp w).toNat with
  | 0x00 => .ok .nop
  | 0x01 => .ok .tick
  | 0x10 => .ok (.keyOn (cmdIdx w))
  | 0x11 => .ok (.keyOff (cmdIdx w))
  | 0x12 => .ok .allKeyOff
  | 0x20 => .ok (.setStart (cmdIdx w) (cmdData w))
  | 0x21 => .ok (.setPitch (cmdIdx w) (cmdData w))
  | 0x22 => .ok (.setAdsr1 (cmdIdx w) (cmdData w))
  | 0x23 => .ok (.setAdsr2 (cmdIdx w) (cmdData w))
  | 0x24 => .ok (.setVolL (cmdIdx w) (cmdData w))
  | 0x25 => .ok (.setVolR (cmdIdx w) (cmdData w))
  | 0x26 => .ok (.setReverbEn (cmdIdx w) (cmdData w))
  | 0x30 => .ok (.revWrite (cmdIdx w) (cmdData w))
  | 0x31 => .ok (.revPreset (cmdIdx w))
  | 0x32 => .ok .revClear
  | 0x38 => .ok (.setWet (cmdData w))
  | 0x39 => .ok (.setMaster (cmdData w))
  | 0x40 => .ok (.memWr8 (cmdAddr w) (cmdData w))
  | 0x41 => .ok (.memWr16 (cmdAddr w) (cmdData w))
  | 0x42 => .ok (.memRd8 (cmdAddr w))
  | 0x43 => .ok (.memRd16 (cmdAddr w))
  | _ => .error (.reservedOpcode (cmdOp w))

/-- A header byte (R82): `filter_raw` selects the row. -/
def decodeHeader (lane : Fin 24) (b : Byte) : Instr :=
  match (headerFilter b).toNat with
  | 0 => .adpcmHdrF0 lane (b.getLsbD 7) (headerShift b)
  | 1 => .adpcmHdrF1 lane (b.getLsbD 7) (headerShift b)
  | 2 => .adpcmHdrF2 lane (b.getLsbD 7) (headerShift b)
  | 3 => .adpcmHdrF3 lane (b.getLsbD 7) (headerShift b)
  | 4 => .adpcmHdrF4 lane (b.getLsbD 7) (headerShift b)
  | 5 => .adpcmHdrF5 lane (b.getLsbD 7) (headerShift b)
  | 6 => .adpcmHdrF6 lane (b.getLsbD 7) (headerShift b)
  | _ => .adpcmHdrF7 lane (b.getLsbD 7) (headerShift b)

/-- A flags byte (R84): bits 1:0 select the row. -/
def decodeFlags (lane : Fin 24) (b : Byte) : Instr :=
  match b.getLsbD 0, b.getLsbD 1 with
  | false, rep => .adpcmFlagsContinue lane (b.extractLsb' 3 5) (b.getLsbD 2) rep
  | true, true => .adpcmFlagsLoop lane (b.extractLsb' 3 5) (b.getLsbD 2)
  | true, false => .adpcmFlagsStop lane (b.extractLsb' 3 5) (b.getLsbD 2)

def decodeAdsr1 (lane : Fin 24) (w : U16) : Instr :=
  .adsr1Word lane (attackExp w) (attackShift w) (attackStep w) (decayShift w) (sustainLevel w)

def decodeAdsr2 (lane : Fin 24) (w : U16) : Instr :=
  .adsr2Word lane (sustainExp w) (sustainDec w) (adsr2Unused w) (sustainShift w) (sustainStep w)
    (releaseExp w) (releaseShift w)

/-- The instruction an item stands for. -/
def decode : Item → Except DecodeError Instr
  | .cmd w => decodeCmd w
  | .hdr lane b => .ok (decodeHeader lane b)
  | .flags lane b => .ok (decodeFlags lane b)
  | .adsr1 lane w => .ok (decodeAdsr1 lane w)
  | .adsr2 lane w => .ok (decodeAdsr2 lane w)

/-! ### Encoding: fields a command does not use are written 0 (R97). -/

/-- The item of an instruction. -/
def encode : Instr → Item
  | .nop => .cmd (cmdWord 0x00 0 0 0)
  | .tick => .cmd (cmdWord 0x01 0 0 0)
  | .keyOn idx => .cmd (cmdWord 0x10 idx 0 0)
  | .keyOff idx => .cmd (cmdWord 0x11 idx 0 0)
  | .allKeyOff => .cmd (cmdWord 0x12 0 0 0)
  | .setStart idx data => .cmd (cmdWord 0x20 idx data 0)
  | .setPitch idx data => .cmd (cmdWord 0x21 idx data 0)
  | .setAdsr1 idx data => .cmd (cmdWord 0x22 idx data 0)
  | .setAdsr2 idx data => .cmd (cmdWord 0x23 idx data 0)
  | .setVolL idx data => .cmd (cmdWord 0x24 idx data 0)
  | .setVolR idx data => .cmd (cmdWord 0x25 idx data 0)
  | .setReverbEn idx data => .cmd (cmdWord 0x26 idx data 0)
  | .revWrite idx data => .cmd (cmdWord 0x30 idx data 0)
  | .revPreset idx => .cmd (cmdWord 0x31 idx 0 0)
  | .revClear => .cmd (cmdWord 0x32 0 0 0)
  | .setWet data => .cmd (cmdWord 0x38 0 data 0)
  | .setMaster data => .cmd (cmdWord 0x39 0 data 0)
  | .memWr8 addr data => .cmd (cmdWord 0x40 0 data addr)
  | .memWr16 addr data => .cmd (cmdWord 0x41 0 data addr)
  | .memRd8 addr => .cmd (cmdWord 0x42 0 0 addr)
  | .memRd16 addr => .cmd (cmdWord 0x43 0 0 addr)
  | .adpcmHdrF0 lane b7 sh => .hdr lane (headerByte b7 0 sh)
  | .adpcmHdrF1 lane b7 sh => .hdr lane (headerByte b7 1 sh)
  | .adpcmHdrF2 lane b7 sh => .hdr lane (headerByte b7 2 sh)
  | .adpcmHdrF3 lane b7 sh => .hdr lane (headerByte b7 3 sh)
  | .adpcmHdrF4 lane b7 sh => .hdr lane (headerByte b7 4 sh)
  | .adpcmHdrF5 lane b7 sh => .hdr lane (headerByte b7 5 sh)
  | .adpcmHdrF6 lane b7 sh => .hdr lane (headerByte b7 6 sh)
  | .adpcmHdrF7 lane b7 sh => .hdr lane (headerByte b7 7 sh)
  | .adpcmFlagsContinue lane ign st rep => .flags lane (flagsByte ign st rep false)
  | .adpcmFlagsLoop lane ign st => .flags lane (flagsByte ign st true true)
  | .adpcmFlagsStop lane ign st => .flags lane (flagsByte ign st false true)
  | .adsr1Word lane ae ash ast dsh sl => .adsr1 lane (packAdsr1 ae ash ast dsh sl)
  | .adsr2Word lane se sd u ssh sst re rsh => .adsr2 lane (packAdsr2 se sd u ssh sst re rsh)

/-! ### Words as spec/opcode_table.json numbers them -/

/-- The item a table word stands for. The table gives its rows 64 bits (CMD64), 16 bits (REG16) or 8 bits (ADPCM_HDR and
ADPCM_FLAGS). The width and the bits alone do not tell the two REG16 rows apart (both have an empty mask), nor a header
byte from a flags byte (either format admits all 256 bytes): a 16-bit word is read as ADSR1, an 8-bit word as the header
byte, the first byte of a block, in the lane of voice 0 (notes/assumptions/3.md). -/
def tableItem (nbits w : Nat) : Option Item :=
  match nbits with
  | 64 => some (.cmd (BitVec.ofNat 64 w))
  | 16 => some (.adsr1 0 (BitVec.ofNat 16 w))
  | 8 => some (.hdr 0 (BitVec.ofNat 8 w))
  | _ => none

/-- The instruction this decoder reads from a table word; `none` where it refuses. -/
def decodeTableWord (nbits w : Nat) : Option Instr :=
  match tableItem nbits w with
  | none => none
  | some it =>
    match decode it with
    | .ok i => some i
    | .error _ => none

end Sys2Proof
end

