-- ==== Sys2Proof/Machine/State.lean ====
section
/-! DEFINITION. The state of the block (spec/10_state.md) as plain data, its value after reset (R320), and the ways a
step can stop. R20 gives the state whole: the 24 voices, the sample memory, the output stage's registers and latches
and the reverb unit. The two fields `port` and `result` are the model's own (notes/assumptions/1.md): the command
stream that has not been executed yet and the result of the command executed last (R230). -/

namespace Sys2Proof.Machine

/-- The phases of the envelope (R28, R150). -/
inductive Phase where
  | attack
  | decay
  | sustain
  | release
  | off
  deriving DecidableEq, Repr

/-- One voice: seven registers written by the host (R21 to R27), then its internal state (R28 to R37). -/
structure Voice where
  /-- R21: start address in 16-byte units. -/
  startBlk : U16
  /-- R22. -/
  pitch : U16
  /-- R23, fields in R88. -/
  adsr1 : U16
  /-- R24, fields in R89. -/
  adsr2 : U16
  /-- R25. -/
  volL : I16
  /-- R26. -/
  volR : I16
  /-- R27. -/
  revEn : Bool
  /-- R28. -/
  active : Bool
  /-- R28. -/
  phase : Phase
  /-- R29. -/
  level : I16
  /-- R30: byte address of the block being played or about to be fetched. -/
  curAddr : BitVec 19
  /-- R31. -/
  loopAddr : BitVec 19
  /-- R32: bit 0 loop-end, bit 1 loop-repeat, bit 2 loop-start. -/
  blkFlags : BitVec 3
  /-- R32. -/
  hasBlock : Bool
  /-- R33: pitch counter, fraction in bits 11:0. -/
  pcount : U16
  /-- R34: 0 .. 27. -/
  sidx : Fin 28
  /-- R35: the current block's samples. -/
  dec : Vector I16 28
  /-- R35: the last three samples of the block before. -/
  carry : Vector I16 3
  /-- R36. -/
  prev1 : I16
  /-- R36. -/
  prev2 : I16
  /-- R37. -/
  envCnt : U16
  deriving DecidableEq, Repr

/-- A voice after reset (R320): every register and counter 0, idle. -/
def Voice.reset : Voice :=
  { startBlk := 0, pitch := 0, adsr1 := 0, adsr2 := 0, volL := 0, volR := 0, revEn := false,
    active := false, phase := .off, level := 0, curAddr := 0, loopAddr := 0, blkFlags := 0, hasBlock := false,
    pcount := 0, sidx := 0, dec := Vector.replicate 28 0, carry := Vector.replicate 3 0, prev1 := 0, prev2 := 0,
    envCnt := 0 }

/-- The output latches (R42). The last two are exact rationals in [-1, 1]. -/
structure Latches where
  dryL : I16
  dryR : I16
  revinL : I16
  revinR : I16
  wetL : I16
  wetR : I16
  outL : Rat
  outR : Rat
  deriving DecidableEq, Repr

def Latches.reset : Latches :=
  { dryL := 0, dryR := 0, revinL := 0, revinR := 0, wetL := 0, wetR := 0, outL := 0, outR := 0 }

/-- The reverb unit (R44 to R49), behind the one function `reverbTick` (R216). -/
structure Reverb where
  /-- `rev_len` (R44): length in halfwords of the circular region; 0 disables the core. -/
  len : Nat
  /-- `rev_reg[0..31]` (R45). -/
  reg : Vector U16 32
  /-- `rev_buf` (R46): a halfword memory of its own, held as the list of its non-zero entries. -/
  buf : List (Nat × I16)
  /-- `rev_cur` (R46). -/
  cur : Nat
  /-- `rev_phase` (R47); `true` is 1. -/
  phase : Bool
  /-- `ds_l[0..38]` (R48), index 38 the newest. -/
  dsL : Vector I16 39
  /-- `ds_r[0..38]` (R48). -/
  dsR : Vector I16 39
  /-- `us_l[0..19]` (R49), index 19 the newest. -/
  usL : Vector I16 20
  /-- `us_r[0..19]` (R49). -/
  usR : Vector I16 20
  deriving DecidableEq, Repr

def Reverb.reset : Reverb :=
  { len := 0, reg := Vector.replicate 32 0, buf := [], cur := 0, phase := false,
    dsL := Vector.replicate 39 0, dsR := Vector.replicate 39 0,
    usL := Vector.replicate 20 0, usR := Vector.replicate 20 0 }

/-- What a command returns to the host (R94, R230, R252(e)). -/
inductive Result where
  /-- Every command but the three below. -/
  | none
  /-- `MEM_RD8` (R250). -/
  | byte (b : Byte)
  /-- `MEM_RD16` (R251): the sixteen bits as they stand. -/
  | half (h : U16)
  /-- `TICK` (R231): the eight output latches. -/
  | tick (l : Latches)
  deriving DecidableEq, Repr

structure State where
  /-- The 24 voices (R20). -/
  voices : Vector Voice 24
  /-- The sample memory (R40): the list of its non-zero bytes, addresses rising. -/
  mem : List Host.Cell
  /-- `wet_q15` (R41). -/
  wetQ15 : U16
  /-- `master_q14` (R41). -/
  masterQ14 : U16
  /-- The output latches (R42). -/
  latches : Latches
  /-- The reverb unit (R44 to R49). -/
  rev : Reverb
  /-- The model's own: the items of the command stream not executed yet, the next one first. -/
  port : List Item
  /-- The model's own: what the instruction executed last returned. -/
  result : Result
  deriving DecidableEq, Repr

/-- The state right after reset, before the first command (R320). -/
def State.reset : State :=
  { voices := Vector.replicate 24 Voice.reset, mem := [], wetQ15 := 0, masterQ14 := 0, latches := Latches.reset,
    rev := Reverb.reset, port := [], result := .none }

/-- The block raises no exception of any kind and nothing in it has the treatment `fault` (R300, 93 part 1), so a step
never ends in a fault: the type has no constructor. -/
inductive Fault where
  deriving DecidableEq, Repr

/-- Why a step gives no next state. -/
inductive Refusal where
  /-- Raised by `exec` alone, for an instruction that has no meaning in this model; no arm does so. Safe. -/
  | notModelled (mnemonic : String)
  /-- Raised by `step` when the opcode of the command word is reserved (R95, R303: a model must refuse it, so that no
  proof can rest on a no-op or on a fault). Safe. -/
  | reservedOpcode (op : Byte)
  deriving DecidableEq, Repr

/-- The outcome of an instruction. -/
abbrev Out := Host.Outcome State Fault Refusal

end Sys2Proof.Machine
end

