-- ==== Sys2Proof/Machine/Operands.lean ====
section
/-! DEFINITION. The arithmetic primitives of spec/00_scope.md rules R8 to R10 and the operand forms of the commands
and of the ADPCM block (R83, R85, R93). All arithmetic is on unbounded integers (R9, R11). -/

namespace Sys2Proof.Machine

/-- `asr(a, n) = floor(a / 2^n)` (R9). -/
def asr (a : Int) (n : Nat) : Int := a / 2 ^ n

/-- `clamp(x, lo, hi)` (R10). -/
def clamp (x lo hi : Int) : Int := if x < lo then lo else if hi < x then hi else x

/-- `sat16` (R10), as an integer. -/
def sat16 (x : Int) : Int := clamp x (-32768) 32767

/-- `sat16` (R10), as the sixteen-bit value that is stored. -/
def satI16 (x : Int) : I16 := BitVec.ofInt 16 (sat16 x)

/-- The Q15 product of R205, `asr(a * b, 15)`; R181 and R182 multiply the same way. -/
def mulQ15 (a b : Int) : Int := asr (a * b) 15

/-! ### Operands of commands (R93) -/

/-- `data` read as `i16 = sext_16(data)`: the bits as they stand. -/
def dataI16 (data : U16) : I16 := data

/-- `data[0]` (R242). -/
def dataBit0 (data : U16) : Bool := data.getLsbD 0

/-- `data[7:0]` (R248). -/
def dataLow (data : U16) : Byte := data.extractLsb' 0 8

/-- `data[15:8]` (R249). -/
def dataHigh (data : U16) : Byte := data.extractLsb' 8 8

/-- A start address, `(start_blk * 16) mod RAM_BYTES` (R21). -/
def startAddr (startBlk : U16) : BitVec 19 := BitVec.ofNat 19 (startBlk.toNat * 16)

/-- The length operand of `REV_WRITE` to index 32, `min(data * 4, REVBUF_MAX)` (R93, R243). -/
def lenOperand (p : Config.Params) (data : U16) : Nat := min (data.toNat * 4) p.revbufMax

/-! ### Operands of the block decode -/

/-- The effective shift (R83). -/
def effShift (p : Config.Params) (shiftRaw : BitVec 4) : Nat :=
  if shiftRaw.toNat ≤ 12 then shiftRaw.toNat else p.shiftFallback.val

/-- The effective filter (R83): a raw value above 4 acts as 4. -/
def effFilter (filterRaw : BitVec 3) : Nat := if filterRaw.toNat ≤ 4 then filterRaw.toNat else 4

/-- The earlier sample of a data byte, its low nibble (R85). -/
def lowNibble (b : Byte) : BitVec 4 := b.extractLsb' 0 4

/-- The later sample of a data byte, its high nibble (R85). -/
def highNibble (b : Byte) : BitVec 4 := b.extractLsb' 4 4

/-- `N_0 .. N_27` (R85), from the data bytes `B[2] .. B[15]` in ascending order. -/
def nibbles : List Byte → List (BitVec 4)
  | [] => []
  | b :: bs => lowNibble b :: highNibble b :: nibbles bs

/-! ### Operands of the pitch counter -/

/-- `min(pitch, 0x3FFF)` (R140). -/
def pitchStep (pitch : U16) : Nat := min pitch.toNat 0x3FFF

/-- The interpolation index, `pcount[11:4]` (R134). -/
def interpIndex (pcount : U16) : Nat := (pcount.extractLsb' 4 8).toNat

/-- The whole samples accumulated by this tick, `pcount[15:12]` (R137). -/
def wholeSamples (pcount : U16) : Nat := (pcount.extractLsb' 12 4).toNat

/-- The fraction kept, `pcount[11:0]` (R137). -/
def fraction (pcount : U16) : U16 := pcount &&& 0x0FFF

/-! ### Operands of the output stage (R41, R195) -/

/-- `min(wet_q15, 0x8000)` and `min(master_q14, 0x8000)`. -/
def levelOperand (r : U16) : Nat := min r.toNat 0x8000

end Sys2Proof.Machine
end

