-- ==== Sys2Proof/Machine/Flags.lean ====
section
/-! DEFINITION. The flags the block has: the three loop flags of an ADPCM block (R84), held in `blk_flags[v]`, and the
envelope counter's overflow bit (R155). The block has no condition code and no status register (R52). -/

namespace Sys2Proof.Machine

/-- Bit 0: the last block of a sample or of a loop body (R84). -/
def loopEnd (f : BitVec 3) : Bool := f.getLsbD 0

/-- Bit 1: with loop-end, playback continues at the loop address (R84). -/
def loopRepeat (f : BitVec 3) : Bool := f.getLsbD 1

/-- Bit 2: the address of this block becomes the loop address (R84). -/
def loopStart (f : BitVec 3) : Bool := f.getLsbD 2

/-- A non-looping end: loop-end without loop-repeat (R84, R138). -/
def stopsVoice (f : BitVec 3) : Bool := loopEnd f && !loopRepeat f

/-- The three flags as `blk_flags` holds them. -/
def flagBits (start rep fin : Bool) : BitVec 3 :=
  BitVec.ofBool start ++ BitVec.ofBool rep ++ BitVec.ofBool fin

/-- "The top bit overflows" (R155): bit 15 of the counter is 1 after the addition. -/
def counterFull (cnt : U16) : Bool := cnt.getLsbD 15

end Sys2Proof.Machine
end

