-- ==== Sys2Proof/Machine/Float.lean ====
section
/-! DEFINITION. The default of the parameter `toF32` (R6, R196): an exact rational to the bits of an IEEE 754 binary32,
rounded to nearest, ties to even. The layout of the 32 bits (sign, eight exponent bits, 23 fraction bits) is that of the
standard R196 names (PRESUMED, notes/assumptions/5.md). -/

namespace Sys2Proof.Machine

/-- `num / den` rounded to the nearest integer, a tie to the even one. -/
def divEven (num den : Nat) : Nat :=
  let q := num / den
  let r := num % den
  if den < 2 * r ∨ (2 * r = den ∧ q % 2 = 1) then q + 1 else q

/-- `floor(log2(num / den))` for positive `num` and `den`. -/
def floorLog2 (num den : Nat) : Int :=
  let e : Int := (num.log2 : Int) - den.log2
  if num * 2 ^ (-e).toNat < den * 2 ^ e.toNat then e - 1 else e

/-- The bits of the magnitude `num / den`: the significand is counted in units of the last place, and adding it to the
exponent field carries where rounding reaches the next power of two. A magnitude past the largest number is infinity. -/
def f32Magnitude (num den : Nat) : Nat :=
  if num = 0 then 0
  else
    let e := max (floorLog2 num den) (-126)
    min 0x7F800000 ((e + 126).toNat * 2 ^ 23 + divEven (num * 2 ^ (23 - e).toNat) (den * 2 ^ (e - 23).toNat))

/-- `toF32` with its default rounding. -/
def nearestF32 (q : Rat) : BitVec 32 :=
  BitVec.ofBool (decide (q.num < 0)) ++ BitVec.ofNat 31 (f32Magnitude q.num.natAbs q.den)

end Sys2Proof.Machine
end

