-- ==== Sys2Proof/Machine/Ops.lean ====
section
/-! DEFINITION. The named operations over memory and registers. Both memories of R60 are held sparsely, as the list of
their entries that differ from what an unlisted address reads as; every access of the model goes through `cellRead` and
`cellWrite`. There is no operation for taking an exception or returning from one: the block has neither (R300, R304);
what happens instead of each exceptional condition (R302) stands in the operation that meets it. -/

namespace Sys2Proof.Machine

/-! ### Sparse memories -/

/-- What an address that no entry lists reads as: 0, the reset contents of both memories (R320). -/
def blank (n : Nat) : BitVec n := 0

/-- The cell at address `a`. -/
def cellRead {n : Nat} : List (Nat × BitVec n) → Nat → BitVec n
  | [], _ => blank n
  | (b, x) :: rest, a => if a = b then x else cellRead rest a

/-- Put an entry in front of a list whose addresses all lie above `a`, unless it says what the address reads anyway. -/
def consCell {n : Nat} (a : Nat) (x : BitVec n) (rest : List (Nat × BitVec n)) : List (Nat × BitVec n) :=
  if x = blank n then rest else (a, x) :: rest

/-- Store `x` at address `a`, keeping the canonical form. -/
def cellWrite {n : Nat} : List (Nat × BitVec n) → Nat → BitVec n → List (Nat × BitVec n)
  | [], a, x => consCell a x []
  | (b, y) :: rest, a, x =>
    if a < b then consCell a x ((b, y) :: rest)
    else if a = b then consCell a x rest
    else (b, y) :: cellWrite rest a x

/-- The canonical form from address `lo` up: addresses strictly rising, all below `bound`, no entry blank. -/
def cellsFrom {n : Nat} (bound : Nat) : Nat → List (Nat × BitVec n) → Bool
  | _, [] => true
  | lo, (b, x) :: rest => decide (lo ≤ b) && decide (b < bound) && decide (x ≠ blank n) && cellsFrom bound (b + 1) rest

/-- The canonical form of a memory of `bound` cells. -/
def cellsWf {n : Nat} (bound : Nat) (m : List (Nat × BitVec n)) : Bool := cellsFrom bound 0 m

/-! ### The sample memory (R40, R60 to R64) -/

/-- The sample memory's canonical form. -/
def Memory.wf (m : List Host.Cell) : Bool := cellsWf RAM_BYTES m

/-- One byte; every address is taken `mod RAM_BYTES` (R61). -/
def memByte (m : List Host.Cell) (a : Nat) : Byte := cellRead m (a % RAM_BYTES)

/-- Store one byte. -/
def memSetByte (m : List Host.Cell) (a : Nat) (b : Byte) : List Host.Cell := cellWrite m (a % RAM_BYTES) b

/-- `MemRead(a, 2)` (R12, R62): little-endian, each byte address wrapping on its own. -/
def memHalf (m : List Host.Cell) (a : Nat) : U16 := memByte m (a + 1) ++ memByte m a

/-- `MemWrite(a, 2, h)` (R249): bits 7:0 first, then bits 15:8 at the next byte. -/
def memSetHalf (m : List Host.Cell) (a : Nat) (h : U16) : List Host.Cell :=
  memSetByte (memSetByte m a (dataLow h)) (a + 1) (dataHigh h)

/-- The fourteen data bytes `B[2] .. B[15]` of the block at `a` (R81). -/
def blockData (m : List Host.Cell) (a : Nat) : Vector Byte 14 :=
  ⟨⟨(List.range 14).map fun k => memByte m (a + 2 + k)⟩, by simp⟩

/-! ### Voices -/

/-- The voice an index operand names, if there is one (R96). -/
def voiceAt (s : State) (idx : Byte) : Option Voice := s.voices[idx.toNat]?

/-- Update one of the 24 voices. -/
def setVoice (s : State) (i : Fin 24) (f : Voice → Voice) : State :=
  { s with voices := s.voices.set i.val (f s.voices[i]) }

/-- Update the voice an index operand names; an index of 24 or more is ignored (R96). -/
def updVoice (s : State) (idx : Byte) (f : Voice → Voice) : State :=
  if h : idx.toNat < NVOICES then setVoice s ⟨idx.toNat, h⟩ f else s

/-- Update all 24 voices. -/
def mapVoices (f : Voice → Voice) (vs : Vector Voice 24) : Vector Voice 24 := ⟨⟨vs.toList.map f⟩, by simp⟩

/-- `VoiceOff` (R139). -/
def voiceOff (v : Voice) : Voice := { v with active := false, phase := .off, level := 0, envCnt := 0 }

/-- What `KEY_ON` does to its voice (R233, R131). -/
def keyOnVoice (v : Voice) : Voice :=
  { v with
    active := true, phase := .attack, level := 0, envCnt := 0
    curAddr := startAddr v.startBlk, loopAddr := startAddr v.startBlk
    blkFlags := 0, hasBlock := false
    dec := Vector.replicate 28 0, carry := Vector.replicate 3 0, prev1 := 0, prev2 := 0
    sidx := 0, pcount := 0 }

/-- What `KEY_OFF` does to its voice (R234): only Attack, Decay and Sustain are left. -/
def keyOffVoice (v : Voice) : Voice :=
  match v.active, v.phase with
  | true, .attack | true, .decay | true, .sustain => { v with phase := .release, envCnt := 0 }
  | _, _ => v

/-! ### The reverb registers (R45) -/

/-- The names of the reverb register file, in index order (PRESUMED, 93 item G7). -/
inductive RevReg where
  | dAPF1 | dAPF2 | vIIR | vCOMB1 | vCOMB2 | vCOMB3 | vCOMB4 | vWALL | vAPF1 | vAPF2
  | mLSAME | mRSAME | mLCOMB1 | mRCOMB1 | mLCOMB2 | mRCOMB2 | dLSAME | dRSAME | mLDIFF | mRDIFF
  | mLCOMB3 | mRCOMB3 | mLCOMB4 | mRCOMB4 | dLDIFF | dRDIFF | mLAPF1 | mRAPF1 | mLAPF2 | mRAPF2
  | vLIN | vRIN
  deriving DecidableEq, Repr

/-- The index of a reverb register (the table of R45). -/
def regIndex : RevReg → Fin 32
  | .dAPF1 => 0 | .dAPF2 => 1 | .vIIR => 2 | .vCOMB1 => 3 | .vCOMB2 => 4 | .vCOMB3 => 5 | .vCOMB4 => 6
  | .vWALL => 7 | .vAPF1 => 8 | .vAPF2 => 9 | .mLSAME => 10 | .mRSAME => 11 | .mLCOMB1 => 12 | .mRCOMB1 => 13
  | .mLCOMB2 => 14 | .mRCOMB2 => 15 | .dLSAME => 16 | .dRSAME => 17 | .mLDIFF => 18 | .mRDIFF => 19
  | .mLCOMB3 => 20 | .mRCOMB3 => 21 | .mLCOMB4 => 22 | .mRCOMB4 => 23 | .dLDIFF => 24 | .dRDIFF => 25
  | .mLAPF1 => 26 | .mRAPF1 => 27 | .mLAPF2 => 28 | .mRAPF2 => 29 | .vLIN => 30 | .vRIN => 31

/-- `A(name)`, an offset in halfwords (R205). -/
def revOffset (r : Reverb) (name : RevReg) : Int := (r.reg[regIndex name].toNat * 4 : Nat)

/-- `V(name)`, a signed Q15 coefficient (R205). -/
def revCoeff (r : Reverb) (name : RevReg) : Int := r.reg[regIndex name].toInt

/-- Where the halfword at offset `off` lies, `(rev_cur + off) mod rev_len` (R67, R205). -/
def revAddr (r : Reverb) (off : Int) : Nat := (((r.cur : Int) + off) % (r.len : Int)).toNat

/-- `RevRead(off)` (R205). -/
def revRead (r : Reverb) (off : Int) : Int := (cellRead r.buf (revAddr r off)).toInt

/-- `RevWrite(off, x)` (R205). -/
def revWriteBuf (r : Reverb) (off : Int) (x : I16) : Reverb := { r with buf := cellWrite r.buf (revAddr r off) x }

/-- Set the length of the circular region and bring the position back into it (R243, R244). -/
def setRevLen (r : Reverb) (len : Nat) : Reverb :=
  { r with len := len, cur := if len = 0 then 0 else r.cur % len }

/-- The reverb buffer's canonical form. -/
def Reverb.bufWf (p : Config.Params) (r : Reverb) : Bool := cellsWf p.revbufMax r.buf

/-! ### The end of an instruction -/

/-- The instruction completes and returns `res` to the host (R230). -/
def done (s : State) (res : Result) : Out := .next { s with result := res }

end Sys2Proof.Machine
end

