-- ==== Sys2Proof/Machine/Keying.lean ====
section
/-! DEFINITION. Keying (spec/46_commands.md section 3). -/

namespace Sys2Proof.Machine

/-- `KEY_ON` (R233). No memory access happens here; the next `TICK` fetches. -/
def execKeyOn (idx : Byte) (s : State) : Out := done (updVoice s idx keyOnVoice) .none

/-- `KEY_OFF` (R234). -/
def execKeyOff (idx : Byte) (s : State) : Out := done (updVoice s idx keyOffVoice) .none

/-- `ALL_KEY_OFF` (R235): `KEY_OFF` for every voice. -/
def execAllKeyOff (s : State) : Out := done { s with voices := mapVoices keyOffVoice s.voices } .none

end Sys2Proof.Machine
end

