-- ==== Sys2Proof/Machine/Adpcm.lean ====
section
/-! DEFINITION. The ADPCM block decode of spec/40_adpcm_decoder.md: a pure function of the header's two fields, the
fourteen data bytes and the predictor pair (R110). -/

namespace Sys2Proof.Machine

/-- `DecodeSample` (R112, R113): the shifted nibble, plus the two prediction terms, each shifted right on its own,
clamped once. `shift` and `filter` are the effective values of R83. -/
def decodeSample (p : Config.Params) (shift filter : Nat) (nib : BitVec 4) (prev1 prev2 : I16) : I16 :=
  satI16 (asr (nib.toInt * 4096) shift + asr (prev1.toInt * p.filterPos filter) 6 +
    asr (prev2.toInt * p.filterNeg filter) 6)

/-- The samples of a list of nibbles, in ascending order (R111). -/
def decodeNibbles (p : Config.Params) (shift filter : Nat) : List (BitVec 4) → I16 → I16 → List I16
  | [], _, _ => []
  | n :: ns, prev1, prev2 =>
    decodeSample p shift filter n prev1 prev2 ::
      decodeNibbles p shift filter ns (decodeSample p shift filter n prev1 prev2) prev1

theorem decodeNibbles_length (p : Config.Params) (shift filter : Nat) (ns : List (BitVec 4)) (prev1 prev2 : I16) :
    (decodeNibbles p shift filter ns prev1 prev2).length = ns.length := by
  induction ns generalizing prev1 prev2 with
  | nil => rfl
  | cons n ns ih => simp [decodeNibbles, ih]

theorem nibbles_length (bs : List Byte) : (nibbles bs).length = 2 * bs.length := by
  induction bs with
  | nil => rfl
  | cons b bs ih => simp [nibbles, ih]; omega

/-- The 28 samples of a block (R111). The predictor pair afterwards is the last sample and the one before it, since
every sample becomes `prev1` and the old `prev1` becomes `prev2` (R112). -/
def decodeSamples (p : Config.Params) (shift filter : Nat) (data : Vector Byte 14) (prev1 prev2 : I16) :
    Vector I16 28 :=
  ⟨⟨decodeNibbles p shift filter (nibbles data.toList) prev1 prev2⟩, by
    simp [decodeNibbles_length, nibbles_length]⟩

/-- `DecodeBlock` (R111) from the raw header fields: the samples, the new `prev1` and the new `prev2`. -/
def decodeBlock (p : Config.Params) (filterRaw : BitVec 3) (shiftRaw : BitVec 4) (data : Vector Byte 14)
    (prev1 prev2 : I16) : Vector I16 28 × I16 × I16 :=
  let samples := decodeSamples p (effShift p shiftRaw) (effFilter filterRaw) data prev1 prev2
  (samples, samples[27], samples[26])

end Sys2Proof.Machine
end

