-- ==== Sys2Proof/Machine/Stream.lean ====
section
/-! DEFINITION. What a voice does with its sample stream (spec/41_pitch_interpolator.md): `Fetch`, `Interpolate` and
`Advance` with `BlockEnd`. -/

namespace Sys2Proof.Machine

/-- The decode half of `Fetch` (R132): the old block's last three samples into `carry`, then the new block's samples
and the predictor pair. -/
def loadBlock (p : Config.Params) (filterRaw : BitVec 3) (shiftRaw : BitVec 4) (data : Vector Byte 14) (v : Voice) :
    Voice :=
  let d := decodeBlock p filterRaw shiftRaw data v.prev1 v.prev2
  { v with carry := #v[v.dec[25], v.dec[26], v.dec[27]], dec := d.1, prev1 := d.2.1, prev2 := d.2.2 }

/-- The flags half of `Fetch` (R132, R133): the block's flags are latched and a loop-start block becomes the loop
address. -/
def latchFlags (f : BitVec 3) (v : Voice) : Voice :=
  { v with blkFlags := f, loopAddr := if loopStart f then v.curAddr else v.loopAddr, hasBlock := true }

/-- `Fetch` (R132): the sixteen bytes at `cur_addr`. -/
def fetch (p : Config.Params) (mem : List Host.Cell) (v : Voice) : Voice :=
  let header := memByte mem v.curAddr.toNat
  let flags := memByte mem (v.curAddr.toNat + 1)
  latchFlags (flagsField flags)
    (loadBlock p (headerFilter header) (headerShift header) (blockData mem v.curAddr.toNat) v)

/-- The samples the interpolator can reach, oldest first: `carry`, then `dec` (R135); `s(j)` is entry `3 + j`. -/
def window (v : Voice) : Vector I16 31 := v.carry ++ v.dec

/-- The weighted sum of R135 for index `n` and four samples, oldest first. -/
def gaussSum (p : Config.Params) (n : Nat) (a b c d : I16) : Int :=
  p.gauss (0xFF - n) * a.toInt + p.gauss (0x1FF - n) * b.toInt + p.gauss (0x100 + n) * c.toInt + p.gauss n * d.toInt

/-- `Interpolate` (R135): four taps up to the sample cursor, summed exactly and shifted once. Of the two things R135
allows for a table whose rows exceed its bound the clamp is taken, for every table: where the bound holds, as for the
default table, it changes nothing (notes/assumptions/17.md). -/
def interpolate (p : Config.Params) (v : Voice) : Int :=
  sat16 <| asr (gaussSum p (interpIndex v.pcount)
    ((window v)[v.sidx.val]) ((window v)[v.sidx.val + 1]) ((window v)[v.sidx.val + 2]) ((window v)[v.sidx.val + 3])) 15

/-- `BlockEnd` (R138): the flags of the block just finished decide where the cursor goes. -/
def blockEnd (v : Voice) : Voice :=
  let w : Voice :=
    { v with hasBlock := false, curAddr := if loopEnd v.blkFlags then v.loopAddr else v.curAddr + 16 }
  if stopsVoice v.blkFlags then voiceOff w else w

/-- `Advance` (R137): the pitch counter moves, whole samples go into the sample cursor, and leaving the block ends it. -/
def advance (v : Voice) : Voice :=
  let cnt := v.pcount + BitVec.ofNat 16 (pitchStep v.pitch)
  let next := v.sidx.val + wholeSamples cnt
  let w : Voice := { v with pcount := fraction cnt, sidx := Fin.ofNat 28 next }
  if next < BLOCK_SAMPLES then w else blockEnd w

end Sys2Proof.Machine
end

