-- ==== Sys2Proof/Machine/PipelineWords.lean ====
section
/-! DEFINITION. The thirteen rows that are not host commands: the words the pipeline reads inside a `TICK`. Each meaning
is the pipeline operation that reads such a word, on the voice of its lane, over the very operations `TICK` uses
(`loadBlock`, `latchFlags`, `blockEnd`); notes/assumptions/2.md says why and what it adds. A header word acts when a
fetch would be due and a flags word when the voice is active, as in a tick (R132, R137, R183). -/

namespace Sys2Proof.Machine

/-- The decode a header byte selects (R111, R112, R132), on the block at the cursor: the samples, the carry and the
predictor pair. The other half of the fetch is the flags byte's. -/
def headerVoice (p : Config.Params) (mem : List Host.Cell) (filterRaw : BitVec 3) (shiftRaw : BitVec 4) (v : Voice) :
    Voice :=
  if v.active && !v.hasBlock then loadBlock p filterRaw shiftRaw (blockData mem v.curAddr.toNat) v else v

/-- A header word in a lane, with a parameter set. -/
def headerWord (p : Config.Params) (lane : Fin 24) (filterRaw : BitVec 3) (shiftRaw : BitVec 4) (s : State) : Out :=
  done (setVoice s lane (headerVoice p s.mem filterRaw shiftRaw)) .none

/-- What a flags byte makes happen over the life of its block: the latch at the fetch (R133), then the end of the block
(R138). -/
def flagsVoice (f : BitVec 3) (v : Voice) : Voice := if v.active then blockEnd (latchFlags f v) else v

/-- A flags word in a lane. -/
def flagsWord (lane : Fin 24) (f : BitVec 3) (s : State) : Out := done (setVoice s lane (flagsVoice f)) .none

/-- ADPCM_HDR_F0 (R82, R112): coefficient row 0; bit 7 is ignored. -/
def execAdpcmHdrF0 (lane : Fin 24) (_bit7 : Bool) (shift : BitVec 4) (s : State) : Out := headerWord params lane 0 shift s

/-- ADPCM_HDR_F1: coefficient row 1. -/
def execAdpcmHdrF1 (lane : Fin 24) (_bit7 : Bool) (shift : BitVec 4) (s : State) : Out := headerWord params lane 1 shift s

/-- ADPCM_HDR_F2: coefficient row 2. -/
def execAdpcmHdrF2 (lane : Fin 24) (_bit7 : Bool) (shift : BitVec 4) (s : State) : Out := headerWord params lane 2 shift s

/-- ADPCM_HDR_F3: coefficient row 3. -/
def execAdpcmHdrF3 (lane : Fin 24) (_bit7 : Bool) (shift : BitVec 4) (s : State) : Out := headerWord params lane 3 shift s

/-- ADPCM_HDR_F4: coefficient row 4. -/
def execAdpcmHdrF4 (lane : Fin 24) (_bit7 : Bool) (shift : BitVec 4) (s : State) : Out := headerWord params lane 4 shift s

/-- ADPCM_HDR_F5: a reserved value, which acts as filter 4 (R83). -/
def execAdpcmHdrF5 (lane : Fin 24) (_bit7 : Bool) (shift : BitVec 4) (s : State) : Out := headerWord params lane 5 shift s

/-- ADPCM_HDR_F6: a reserved value, which acts as filter 4 (R83). -/
def execAdpcmHdrF6 (lane : Fin 24) (_bit7 : Bool) (shift : BitVec 4) (s : State) : Out := headerWord params lane 6 shift s

/-- ADPCM_HDR_F7: a reserved value, which acts as filter 4 (R83). -/
def execAdpcmHdrF7 (lane : Fin 24) (_bit7 : Bool) (shift : BitVec 4) (s : State) : Out := headerWord params lane 7 shift s

/-- ADPCM_FLAGS_CONTINUE (R84, R138): no loop-end, play goes on at the next block; bits 7:3 are ignored. -/
def execAdpcmFlagsContinue (lane : Fin 24) (_ignored : BitVec 5) (start rep : Bool) (s : State) : Out :=
  flagsWord lane (flagBits start rep false) s

/-- ADPCM_FLAGS_LOOP (R84, R138): play goes on at the loop address. -/
def execAdpcmFlagsLoop (lane : Fin 24) (_ignored : BitVec 5) (start : Bool) (s : State) : Out :=
  flagsWord lane (flagBits start true true) s

/-- ADPCM_FLAGS_STOP (R84, R138, R139): the voice goes Off. -/
def execAdpcmFlagsStop (lane : Fin 24) (_ignored : BitVec 5) (start : Bool) (s : State) : Out :=
  flagsWord lane (flagBits start false true) s

/-- ADSR1_WORD (R88): the word becomes the content of `adsr1` of its lane. -/
def execAdsr1Word (lane : Fin 24) (attackExp : Bool) (attackShift : BitVec 5) (attackStep : BitVec 2)
    (decayShift sustainLevel : BitVec 4) (s : State) : Out :=
  done (setVoice s lane fun v =>
    { v with adsr1 := packAdsr1 attackExp attackShift attackStep decayShift sustainLevel }) .none

/-- ADSR2_WORD (R89): the word becomes the content of `adsr2` of its lane, bit 13 as written. -/
def execAdsr2Word (lane : Fin 24) (sustainExp sustainDec unused : Bool) (sustainShift : BitVec 5)
    (sustainStep : BitVec 2) (releaseExp : Bool) (releaseShift : BitVec 5) (s : State) : Out :=
  done (setVoice s lane fun v =>
    { v with adsr2 := packAdsr2 sustainExp sustainDec unused sustainShift sustainStep releaseExp releaseShift }) .none

end Sys2Proof.Machine
end

