-- ==== Sys2Proof/Machine/Envelope.lean ====
section
/-! DEFINITION. The ADSR envelope generator of spec/42_adsr_envelope.md. `envBase` and `envAdjust` are kept apart so that
a variant of the loosely worded points can be put in their place (91 N22). -/

namespace Sys2Proof.Machine

/-- The parameters of a phase (R152). -/
structure PhaseParams where
  rate : Nat
  decreasing : Bool
  exponential : Bool
  rateMax : Nat
  deriving DecidableEq, Repr

/-- A rate from its shift and step (R91). -/
def rateOf (shift step : Nat) : Nat := shift * 4 + step

/-- The table of R152, read from the registers afresh at every step; an idle envelope has no parameters. -/
def phaseParams (adsr1 adsr2 : U16) : Phase → Option PhaseParams
  | .attack => some ⟨rateOf (attackShift adsr1).toNat (attackStep adsr1).toNat, false, attackExp adsr1, 127⟩
  | .decay => some ⟨rateOf (decayShift adsr1).toNat 0, true, true, 60⟩
  | .sustain =>
    some ⟨rateOf (sustainShift adsr2).toNat (sustainStep adsr2).toNat, sustainDec adsr2, sustainExp adsr2, 127⟩
  | .release => some ⟨rateOf (releaseShift adsr2).toNat 0, true, releaseExp adsr2, 124⟩
  | .off => none

/-- The level at which Decay ends, `min((sustain_level + 1) << 11, 0x7FFF)` (R90). -/
def sustainTarget (adsr1 : U16) : Int := min (((sustainLevel adsr1).toNat + 1) * 2048 : Nat) 0x7FFF

/-- `EnvBase` (R153): the base step and the base increment of a rate. -/
def envBase (rate : Nat) (decreasing : Bool) (rateMax : Nat) : Int × Nat :=
  let m : Int := 7 - (rate % 4 : Nat)
  let step := if decreasing then -m else m
  if rate < 44 then (step * 2 ^ (11 - rate / 4), 0x8000)
  else if rate < 48 then (step, 0x8000)
  else
    let inc := 0x8000 / 2 ^ (rate / 4 - 11)
    (step, if inc = 0 ∧ rate ≠ rateMax then 1 else inc)

/-- `EnvAdjust` (R154): what the exponential mode makes of the base values at the present level. -/
def envAdjust (step : Int) (inc rate : Nat) (decreasing exponential : Bool) (level : Int) : Int × Nat :=
  if exponential then
    if decreasing then (asr (step * level) 15, inc)
    else if 0x6000 ≤ level then
      if rate < 40 then (asr step 2, inc)
      else if 44 ≤ rate then (step, inc / 4)
      else (asr step 1, inc / 2)
    else (step, inc)
  else (step, inc)

/-- The new level of a due change (R156). -/
def envLevel (decreasing : Bool) (level ts : Int) : I16 :=
  BitVec.ofInt 16 (if decreasing then max (level + ts) 0 else clamp (level + ts) (-32768) 32767)

/-- The counter and the level of one `EnvStep`, before the transitions (R155, R156). -/
def envCount (q : PhaseParams) (v : Voice) : Voice :=
  let base := envBase q.rate q.decreasing q.rateMax
  let adj := envAdjust base.1 base.2 q.rate q.decreasing q.exponential v.level.toInt
  let cnt := v.envCnt + BitVec.ofNat 16 adj.2
  if counterFull cnt then { v with envCnt := 0, level := envLevel q.decreasing v.level.toInt adj.1 }
  else { v with envCnt := cnt }

/-- The transitions of R157 to R160, tested in every tick, at most one of them made. -/
def envTransition (v : Voice) : Voice :=
  match v.phase with
  | .attack => if 0x7FFF ≤ v.level.toInt then { v with phase := .decay, envCnt := 0 } else v
  | .decay => if v.level.toInt ≤ sustainTarget v.adsr1 then { v with phase := .sustain, envCnt := 0 } else v
  | .sustain => v
  | .release => if v.level = 0 then voiceOff v else v
  | .off => v

/-- `EnvStep` (R157), performed for every voice whose phase is not Off. -/
def envStep (v : Voice) : Voice :=
  match phaseParams v.adsr1 v.adsr2 v.phase with
  | none => v
  | some q => envTransition (envCount q v)

end Sys2Proof.Machine
end

