-- ==== Sys2Proof/Machine/ReverbUnit.lean ====
section
/-! DEFINITION. The reverb unit of spec/45_reverb.md behind the one function `reverbTick`. Its arithmetic (R205 to R211)
is the spec's own and is not claimed to match any chip bit for bit (R216, notes/assumptions/10.md). -/

namespace Sys2Proof.Machine

/-- Drop the oldest entry of a history and append the newest (R201). -/
def shiftIn {n : Nat} (h : Vector I16 (n + 1)) (x : I16) : Vector I16 (n + 1) :=
  ⟨⟨h.toList.tail ++ [x]⟩, by simp⟩

/-- `FIR39[0]*h[0] + FIR39[stride]*h[1] + ...`, the sum exact. -/
def firSum (p : Config.Params) (stride : Nat) : Nat → List I16 → Int
  | _, [] => 0
  | k, x :: xs => p.fir39 (stride * k) * x.toInt + firSum p stride (k + 1) xs

/-- `Down` (R202). -/
def down (p : Config.Params) (h : Vector I16 39) : I16 := satI16 (asr (firSum p 1 0 h.toList) 15)

/-- `UpFull` (R204): the twenty even taps meet the last twenty core outputs. -/
def upFull (p : Config.Params) (u : Vector I16 20) : I16 := satI16 (asr (firSum p 2 0 u.toList) 14)

/-- The property of R203: odd taps 0 but the centre, which is 0x4000, and the table its own mirror image. -/
def halfBand (p : Config.Params) : Bool :=
  (List.range 39).all fun k =>
    p.fir39 (38 - k) == p.fir39 k && (k % 2 == 0 || p.fir39 k == if k = 19 then 0x4000 else 0)

/-- The zero-stuffed sequence of R204, `z[t - k]`, in a tick that ran the core or in one that did not: the core outputs
lie two ticks apart, the newest at distance 0 or at distance 1. -/
def stuffed (core : Bool) (u : Vector I16 20) (k : Nat) : Int :=
  if decide (k % 2 = 0) = core then (u.toList.getD (19 - k / 2) 0).toInt else 0

/-- The general form of R204, for any table. -/
def upGeneral (p : Config.Params) (core : Bool) (u : Vector I16 20) : I16 :=
  satI16 (asr (2 * ((List.range 39).map fun k => p.fir39 k * stuffed core u k).sum) 15)

/-- Up-sampling in a tick that ran the core (`core`) or in one that did not: the two cases of R201 for a half-band
table, the general form that R203 asks for with any other (R204, notes/assumptions/16.md). -/
def upSample (p : Config.Params) (core : Bool) (u : Vector I16 20) : I16 :=
  if halfBand p then if core then upFull p u else u[10] else upGeneral p core u

/-- `Reflect` (R208): `m` names the write offset, `d` the read offset. -/
def reflect (m d : RevReg) (x : Int) (r : Reverb) : Reverb :=
  let t := revRead r (revOffset r m - 1)
  let fb := mulQ15 (revRead r (revOffset r d)) (revCoeff r .vWALL)
  revWriteBuf r (revOffset r m) (satI16 (mulQ15 (x + fb - t) (revCoeff r .vIIR) + t))

/-- `Comb` (R210) with the four tap offsets of a side. -/
def comb (m1 m2 m3 m4 : RevReg) (r : Reverb) : Int :=
  sat16 (mulQ15 (revCoeff r .vCOMB1) (revRead r (revOffset r m1)) +
    mulQ15 (revCoeff r .vCOMB2) (revRead r (revOffset r m2)) +
    mulQ15 (revCoeff r .vCOMB3) (revRead r (revOffset r m3)) +
    mulQ15 (revCoeff r .vCOMB4) (revRead r (revOffset r m4)))

/-- The unit after an all-pass stage and the stage's output. -/
structure StageOut where
  rev : Reverb
  out : Int
  deriving DecidableEq, Repr

/-- `AllPassk` (R211): `m` names the stage's address, `d` its delay, `g` its gain. -/
def allPass (m d g : RevReg) (c : Int) (r : Reverb) : StageOut :=
  let x := revRead r (revOffset r m - revOffset r d)
  let c' := satI16 (c - mulQ15 (revCoeff r g) x)
  { rev := revWriteBuf r (revOffset r m) c', out := sat16 (mulQ15 c'.toInt (revCoeff r g) + x) }

/-- The two all-pass stages in series (R211). -/
def diffuse (m1 m2 : RevReg) (c : Int) (r : Reverb) : StageOut :=
  let a := allPass m1 .dAPF1 .vAPF1 c r
  allPass m2 .dAPF2 .vAPF2 a.out a.rev

/-- The unit after a step and a stereo pair. -/
structure WetOut where
  rev : Reverb
  left : I16
  right : I16
  deriving DecidableEq, Repr

/-- The four reflections of R206, in its order. -/
def reflections (dl dr : I16) (r : Reverb) : Reverb :=
  let lin := mulQ15 (revCoeff r .vLIN) dl.toInt
  let rin := mulQ15 (revCoeff r .vRIN) dr.toInt
  reflect .mRDIFF .dLDIFF rin (reflect .mLDIFF .dRDIFF lin
    (reflect .mRSAME .dRSAME rin (reflect .mLSAME .dLSAME lin r)))

/-- The position moves by one halfword, circularly (R212). -/
def stepPosition (r : Reverb) : Reverb := { r with cur := (r.cur + 1) % r.len }

/-- `CoreStep` (R206): disabled while the region has no length. -/
def coreStep (dl dr : I16) (r : Reverb) : WetOut :=
  if r.len = 0 then { rev := r, left := 0, right := 0 }
  else
    let r1 := reflections dl dr r
    let l := diffuse .mLAPF1 .mLAPF2 (comb .mLCOMB1 .mLCOMB2 .mLCOMB3 .mLCOMB4 r1) r1
    let rr := diffuse .mRAPF1 .mRAPF2 (comb .mRCOMB1 .mRCOMB2 .mRCOMB3 .mRCOMB4 l.rev) l.rev
    { rev := stepPosition rr.rev, left := BitVec.ofInt 16 l.out, right := BitVec.ofInt 16 rr.out }

/-- The input histories shift in every tick (R201). -/
def pushInput (inL inR : I16) (r : Reverb) : Reverb := { r with dsL := shiftIn r.dsL inL, dsR := shiftIn r.dsR inR }

/-- `ReverbTick` (R201): the network runs in the ticks that begin with `rev_phase = 1`. -/
def reverbTick (p : Config.Params) (inL inR : I16) (r0 : Reverb) : WetOut :=
  let r := pushInput inL inR r0
  if r.phase then
    let c := coreStep (down p r.dsL) (down p r.dsR) r
    let r2 : Reverb := { c.rev with usL := shiftIn r.usL c.left, usR := shiftIn r.usR c.right, phase := false }
    { rev := r2, left := upSample p true r2.usL, right := upSample p true r2.usR }
  else { rev := { r with phase := true }, left := upSample p false r.usL, right := upSample p false r.usR }

/-- What `REV_CLEAR` does to the unit (R214, R245): all delay-line state, not the registers or the length. -/
def clearReverb (r : Reverb) : Reverb :=
  { r with
    buf := [], cur := 0, phase := false
    dsL := Vector.replicate 39 0, dsR := Vector.replicate 39 0
    usL := Vector.replicate 20 0, usR := Vector.replicate 20 0 }

end Sys2Proof.Machine
end

