-- ==== Sys2Proof/Machine/ReverbRegs.lean ====
section
/-! DEFINITION. The reverb and output-stage commands (spec/46_commands.md section 5). -/

namespace Sys2Proof.Machine

/-- What `REV_WRITE` does to the unit (R243): index 32 is the length of the circular region, an index above it is
ignored. -/
def writeReverb (p : Config.Params) (idx : Byte) (data : U16) (r : Reverb) : Reverb :=
  if h : idx.toNat < 32 then { r with reg := r.reg.set idx.toNat data }
  else if idx.toNat = 32 then setRevLen r (lenOperand p data)
  else r

/-- What loading a preset does to the unit (R244): the registers and the length, not the delay lines. -/
def loadPreset (p : Config.Params) (e : Config.Preset) (r : Reverb) : Reverb :=
  setRevLen { r with reg := e.reg } (min e.len p.revbufMax)

/-- What `REV_PRESET` does to the unit (R244): an index outside the list is ignored. -/
def choosePreset (p : Config.Params) (idx : Byte) (r : Reverb) : Reverb :=
  match p.reverbPresets[idx.toNat]? with
  | some e => loadPreset p e r
  | none => r

/-- `REV_WRITE` (R243) with a parameter set. -/
def revWriteWith (p : Config.Params) (idx : Byte) (data : U16) (s : State) : Out :=
  done { s with rev := writeReverb p idx data s.rev } .none

/-- `REV_PRESET` (R244) with a parameter set. -/
def revPresetWith (p : Config.Params) (idx : Byte) (s : State) : Out :=
  done { s with rev := choosePreset p idx s.rev } .none

/-- `REV_WRITE` with the default parameters. -/
def execRevWrite (idx : Byte) (data : U16) (s : State) : Out := revWriteWith params idx data s

/-- `REV_PRESET` with the default parameters, whose list of presets is open. -/
def execRevPreset (idx : Byte) (s : State) : Out := revPresetWith params idx s

/-- `REV_CLEAR` (R245): the latches keep their last value. -/
def execRevClear (s : State) : Out := done { s with rev := clearReverb s.rev } .none

/-- `SET_WET` (R246). -/
def execSetWet (data : U16) (s : State) : Out := done { s with wetQ15 := data } .none

/-- `SET_MASTER` (R247). -/
def execSetMaster (data : U16) (s : State) : Out := done { s with masterQ14 := data } .none

end Sys2Proof.Machine
end

