-- ==== Sys2Proof/Machine/SampleMemory.lean ====
section
/-! DEFINITION. The host's memory port (spec/46_commands.md section 6). Every address is legal (R61, R63). -/

namespace Sys2Proof.Machine

/-- `MEM_WR8` (R248): bits 15:8 of the operand are ignored. -/
def execMemWr8 (addr : BitVec 32) (data : U16) (s : State) : Out :=
  done { s with mem := memSetByte s.mem addr.toNat (dataLow data) } .none

/-- `MEM_WR16` (R249). -/
def execMemWr16 (addr : BitVec 32) (data : U16) (s : State) : Out :=
  done { s with mem := memSetHalf s.mem addr.toNat data } .none

/-- `MEM_RD8` (R250). -/
def execMemRd8 (addr : BitVec 32) (s : State) : Out := done s (.byte (memByte s.mem addr.toNat))

/-- `MEM_RD16` (R251): the raw sixteen bits. -/
def execMemRd16 (addr : BitVec 32) (s : State) : Out := done s (.half (memHalf s.mem addr.toNat))

end Sys2Proof.Machine
end

