-- ==== Sys2Proof/Machine/Mixer.lean ====
section
/-! DEFINITION. The voice tick (spec/43_voice_output.md), the two buses and the output stage (spec/44_mixer.md). -/

namespace Sys2Proof.Machine

/-- What one voice's part of a tick gives: the voice afterwards and its stereo output. -/
structure VoiceOut where
  voice : Voice
  left : Int
  right : Int
  deriving DecidableEq, Repr

/-- The fetch that opens a voice's part of a tick, if one is due (R132). -/
def fetchIfDue (p : Config.Params) (mem : List Host.Cell) (v : Voice) : Voice :=
  if v.hasBlock then v else fetch p mem v

/-- The envelope step and the cursor advance that close a voice's part of a tick; a voice that the envelope turns Off
does not advance (R180, R185). -/
def moveOn (v : Voice) : Voice :=
  let w := envStep v
  if w.active then advance w else w

/-- `VoiceTick` (R180): the output is computed from the state the voice had when the tick began, plus the fetch. -/
def voiceTick (p : Config.Params) (mem : List Host.Cell) (v : Voice) : VoiceOut :=
  if v.active then
    let w := fetchIfDue p mem v
    let afterEnv := mulQ15 (interpolate p w) w.level.toInt
    { voice := moveOn w, left := mulQ15 afterEnv w.volL.toInt, right := mulQ15 afterEnv w.volR.toInt }
  else { voice := v, left := 0, right := 0 }

/-- The left contribution of a voice to the reverb-send bus (R191). -/
def sendLeft (p : Config.Params) (mem : List Host.Cell) (v : Voice) : Int :=
  if v.revEn then (voiceTick p mem v).left else 0

/-- The right contribution of a voice to the reverb-send bus (R191). -/
def sendRight (p : Config.Params) (mem : List Host.Cell) (v : Voice) : Int :=
  if v.revEn then (voiceTick p mem v).right else 0

/-- The exact sum of a quantity over the 24 voices (R190). -/
def sumVoices (f : Voice → Int) (vs : Vector Voice 24) : Int := (vs.toList.map f).sum

/-- The output stage for one side (R195), an exact rational: `mix` over `0x8000`, times `M / 0x4000`, over 32768,
clamped to [-1, 1]. The clamp is taken on the numerator over the common denominator `2^44`. -/
def outStage (dry wet : I16) (wetQ15 masterQ14 : U16) : Rat :=
  let w := levelOperand wetQ15
  let num := (dry.toInt * (0x8000 - w) + wet.toInt * w) * levelOperand masterQ14
  mkRat (clamp num (-(2 ^ 44)) (2 ^ 44)) (2 ^ 44)

/-- `MixTick` (R197) but for its result: voices, buses, reverb unit, output stage. -/
def mixTick (p : Config.Params) (s : State) : State :=
  let dryL := satI16 (sumVoices (fun v => (voiceTick p s.mem v).left) s.voices)
  let dryR := satI16 (sumVoices (fun v => (voiceTick p s.mem v).right) s.voices)
  let revinL := satI16 (sumVoices (sendLeft p s.mem) s.voices)
  let revinR := satI16 (sumVoices (sendRight p s.mem) s.voices)
  let wet := reverbTick p revinL revinR s.rev
  { s with
    voices := mapVoices (fun v => (voiceTick p s.mem v).voice) s.voices
    rev := wet.rev
    latches :=
      { dryL := dryL, dryR := dryR, revinL := revinL, revinR := revinR, wetL := wet.left, wetR := wet.right
        outL := outStage dryL wet.left s.wetQ15 s.masterQ14
        outR := outStage dryR wet.right s.wetQ15 s.masterQ14 } }

/-- What a host that wants D0's pair of `f32` is given (R196). -/
def hostPair (p : Config.Params) (l : Latches) : BitVec 32 × BitVec 32 := (p.toF32 l.outL, p.toF32 l.outR)

end Sys2Proof.Machine
end

