-- ==== Sys2Proof/Machine/Time.lean ====
section
/-! DEFINITION. `NOP` and `TICK` (spec/46_commands.md section 2). -/

namespace Sys2Proof.Machine

/-- `NOP` (R232): nothing; no time passes. -/
def execNop (s : State) : Out := done s .none

/-- `TICK` (R231) with a parameter set: the one command that advances time; it returns the eight output latches. -/
def tickWith (p : Config.Params) (s : State) : Out := done (mixTick p s) (.tick (mixTick p s).latches)

/-- `TICK` with the default parameters. -/
def execTick (s : State) : Out := tickWith params s

end Sys2Proof.Machine
end

