-- ==== Sys2Proof/Machine/VoiceRegs.lean ====
section
/-! DEFINITION. The seven per-voice register writes (spec/46_commands.md section 4). None touches a voice's internal
state, and an index of 24 or more is ignored (R96). -/

namespace Sys2Proof.Machine

/-- `SET_START` (R236). -/
def execSetStart (idx : Byte) (data : U16) (s : State) : Out :=
  done (updVoice s idx fun v => { v with startBlk := data }) .none

/-- `SET_PITCH` (R237): all sixteen bits are stored. -/
def execSetPitch (idx : Byte) (data : U16) (s : State) : Out :=
  done (updVoice s idx fun v => { v with pitch := data }) .none

/-- `SET_ADSR1` (R238). -/
def execSetAdsr1 (idx : Byte) (data : U16) (s : State) : Out :=
  done (updVoice s idx fun v => { v with adsr1 := data }) .none

/-- `SET_ADSR2` (R239): bit 13 is stored and has no effect. -/
def execSetAdsr2 (idx : Byte) (data : U16) (s : State) : Out :=
  done (updVoice s idx fun v => { v with adsr2 := data }) .none

/-- `SET_VOL_L` (R240). -/
def execSetVolL (idx : Byte) (data : U16) (s : State) : Out :=
  done (updVoice s idx fun v => { v with volL := dataI16 data }) .none

/-- `SET_VOL_R` (R241). -/
def execSetVolR (idx : Byte) (data : U16) (s : State) : Out :=
  done (updVoice s idx fun v => { v with volR := dataI16 data }) .none

/-- `SET_REVERB_EN` (R242): bits 15:1 of the operand are ignored. -/
def execSetReverbEn (idx : Byte) (data : U16) (s : State) : Out :=
  done (updVoice s idx fun v => { v with revEn := dataBit0 data }) .none

end Sys2Proof.Machine
end

