-- ==== Sys2Proof/Machine/Dispatch.lean ====
section
/-! DEFINITION. One arm per instruction, each one direct call of its meaning (R230). -/

namespace Sys2Proof.Machine

def exec (i : Instr) (s : State) : Host.Outcome State Fault Refusal :=
  match i with
  | .nop => Sys2Proof.Machine.execNop s
  | .tick => Sys2Proof.Machine.execTick s
  | .keyOn idx => Sys2Proof.Machine.execKeyOn idx s
  | .keyOff idx => Sys2Proof.Machine.execKeyOff idx s
  | .allKeyOff => Sys2Proof.Machine.execAllKeyOff s
  | .setStart idx data => Sys2Proof.Machine.execSetStart idx data s
  | .setPitch idx data => Sys2Proof.Machine.execSetPitch idx data s
  | .setAdsr1 idx data => Sys2Proof.Machine.execSetAdsr1 idx data s
  | .setAdsr2 idx data => Sys2Proof.Machine.execSetAdsr2 idx data s
  | .setVolL idx data => Sys2Proof.Machine.execSetVolL idx data s
  | .setVolR idx data => Sys2Proof.Machine.execSetVolR idx data s
  | .setReverbEn idx data => Sys2Proof.Machine.execSetReverbEn idx data s
  | .revWrite idx data => Sys2Proof.Machine.execRevWrite idx data s
  | .revPreset idx => Sys2Proof.Machine.execRevPreset idx s
  | .revClear => Sys2Proof.Machine.execRevClear s
  | .setWet data => Sys2Proof.Machine.execSetWet data s
  | .setMaster data => Sys2Proof.Machine.execSetMaster data s
  | .memWr8 addr data => Sys2Proof.Machine.execMemWr8 addr data s
  | .memWr16 addr data => Sys2Proof.Machine.execMemWr16 addr data s
  | .memRd8 addr => Sys2Proof.Machine.execMemRd8 addr s
  | .memRd16 addr => Sys2Proof.Machine.execMemRd16 addr s
  | .adpcmHdrF0 lane bit7 shift => Sys2Proof.Machine.execAdpcmHdrF0 lane bit7 shift s
  | .adpcmHdrF1 lane bit7 shift => Sys2Proof.Machine.execAdpcmHdrF1 lane bit7 shift s
  | .adpcmHdrF2 lane bit7 shift => Sys2Proof.Machine.execAdpcmHdrF2 lane bit7 shift s
  | .adpcmHdrF3 lane bit7 shift => Sys2Proof.Machine.execAdpcmHdrF3 lane bit7 shift s
  | .adpcmHdrF4 lane bit7 shift => Sys2Proof.Machine.execAdpcmHdrF4 lane bit7 shift s
  | .adpcmHdrF5 lane bit7 shift => Sys2Proof.Machine.execAdpcmHdrF5 lane bit7 shift s
  | .adpcmHdrF6 lane bit7 shift => Sys2Proof.Machine.execAdpcmHdrF6 lane bit7 shift s
  | .adpcmHdrF7 lane bit7 shift => Sys2Proof.Machine.execAdpcmHdrF7 lane bit7 shift s
  | .adpcmFlagsContinue lane ign st rep => Sys2Proof.Machine.execAdpcmFlagsContinue lane ign st rep s
  | .adpcmFlagsLoop lane ign st => Sys2Proof.Machine.execAdpcmFlagsLoop lane ign st s
  | .adpcmFlagsStop lane ign st => Sys2Proof.Machine.execAdpcmFlagsStop lane ign st s
  | .adsr1Word lane ae ash ast dsh sl => Sys2Proof.Machine.execAdsr1Word lane ae ash ast dsh sl s
  | .adsr2Word lane se sd un ssh sst re rsh => Sys2Proof.Machine.execAdsr2Word lane se sd un ssh sst re rsh s

end Sys2Proof.Machine
end

