-- ==== Sys2Proof/Machine/Step.lean ====
section
/-! DEFINITION. One step: the next item of the command stream is taken from the port, decoded and executed (R230,
R70). With nothing at the port the block does nothing (R13, R304). -/

namespace Sys2Proof.Machine

/-- The item at the head of the port is gone. -/
def State.popped (s : State) : State := { s with port := s.port.tail }

/-- Why an item that does not decode is refused (R95, R303). -/
def refusalOf : DecodeError → Refusal
  | .reservedOpcode op => .reservedOpcode op

/-- One step of the block. -/
def step (s : State) : Host.Outcome State Fault Refusal :=
  match s.port with
  | [] => .next s
  | it :: _ =>
    match decode it with
    | .ok i => exec i s.popped
    | .error e => .refused (refusalOf e)

/-- `s` with the instruction of a table word at the head of the port, so that the next step runs exactly it; a word of a
width that no row of the table has leaves `s` alone. -/
def State.withFetchWord (s : State) (nbits w : Nat) : State :=
  match tableItem nbits w with
  | some it => { s with port := it :: s.port }
  | none => s

end Sys2Proof.Machine
end

