-- ==== Sys2Proof/Machine/Configured.lean ====
section
/-! DEFINITION. The machine with its parameters as an argument, as R6 asks: the eleven instructions that use a parameter
take them from the given set, every other one is what it is in `exec`. `exec` and `step` are this machine with the
default set (Laws/Configured.lean). -/

namespace Sys2Proof.Machine

/-- An instruction with a given parameter set. -/
def execWith (p : Config.Params) (i : Instr) (s : State) : Out :=
  match i with
  | .nop => execNop s
  | .tick => tickWith p s
  | .keyOn idx => execKeyOn idx s
  | .keyOff idx => execKeyOff idx s
  | .allKeyOff => execAllKeyOff s
  | .setStart idx data => execSetStart idx data s
  | .setPitch idx data => execSetPitch idx data s
  | .setAdsr1 idx data => execSetAdsr1 idx data s
  | .setAdsr2 idx data => execSetAdsr2 idx data s
  | .setVolL idx data => execSetVolL idx data s
  | .setVolR idx data => execSetVolR idx data s
  | .setReverbEn idx data => execSetReverbEn idx data s
  | .revWrite idx data => revWriteWith p idx data s
  | .revPreset idx => revPresetWith p idx s
  | .revClear => execRevClear s
  | .setWet data => execSetWet data s
  | .setMaster data => execSetMaster data s
  | .memWr8 addr data => execMemWr8 addr data s
  | .memWr16 addr data => execMemWr16 addr data s
  | .memRd8 addr => execMemRd8 addr s
  | .memRd16 addr => execMemRd16 addr s
  | .adpcmHdrF0 lane _ shift => headerWord p lane 0 shift s
  | .adpcmHdrF1 lane _ shift => headerWord p lane 1 shift s
  | .adpcmHdrF2 lane _ shift => headerWord p lane 2 shift s
  | .adpcmHdrF3 lane _ shift => headerWord p lane 3 shift s
  | .adpcmHdrF4 lane _ shift => headerWord p lane 4 shift s
  | .adpcmHdrF5 lane _ shift => headerWord p lane 5 shift s
  | .adpcmHdrF6 lane _ shift => headerWord p lane 6 shift s
  | .adpcmHdrF7 lane _ shift => headerWord p lane 7 shift s
  | .adpcmFlagsContinue lane ign st rep => execAdpcmFlagsContinue lane ign st rep s
  | .adpcmFlagsLoop lane ign st => execAdpcmFlagsLoop lane ign st s
  | .adpcmFlagsStop lane ign st => execAdpcmFlagsStop lane ign st s
  | .adsr1Word lane ae ash ast dsh sl => execAdsr1Word lane ae ash ast dsh sl s
  | .adsr2Word lane se sd un ssh sst re rsh => execAdsr2Word lane se sd un ssh sst re rsh s

/-- One step with a given parameter set. -/
def stepWith (p : Config.Params) (s : State) : Out :=
  match s.port with
  | [] => .next s
  | it :: _ =>
    match decode it with
    | .ok i => execWith p i s.popped
    | .error e => .refused (refusalOf e)

end Sys2Proof.Machine
end

