-- ==== Sys2Proof/Safety.lean ====
section
/-! DEFINITION. What claims about runs are stated in: when an outcome is a next state, and the invariants of R51 as a
predicate on states, to which the canonical form of the two memories is added. -/

namespace Sys2Proof.Machine

/-- The instruction completed. -/
def Completes (o : Out) : Prop := ∃ t, o = .next t

/-- R51 for one voice (`sidx <= 27` holds by its type). -/
structure Voice.Inv (v : Voice) : Prop where
  active_iff : v.active = true ↔ v.phase ≠ .off
  level_nonneg : 0 ≤ v.level.toInt
  cur_aligned : v.curAddr.toNat % 16 = 0
  loop_aligned : v.loopAddr.toNat % 16 = 0
  pcount_lt : v.pcount.toNat < 0x1000
  envCnt_lt : v.envCnt.toNat < 0x8000
  off_silent : v.phase = .off → v.level = 0

/-- R44, R46 and R51 for the reverb unit, and the canonical form of its buffer. -/
structure Reverb.Inv (p : Config.Params) (r : Reverb) : Prop where
  len_le : r.len ≤ p.revbufMax
  cur_lt : 0 < r.len → r.cur < r.len
  cur_zero : r.len = 0 → r.cur = 0
  buf_wf : r.bufWf p = true

/-- R51 for the whole block with a parameter set, and the canonical form of the sample memory. -/
structure State.InvWith (p : Config.Params) (s : State) : Prop where
  voices : ∀ i : Fin 24, s.voices[i].Inv
  rev : s.rev.Inv p
  mem_wf : Memory.wf s.mem = true

/-- R51 for the block with the default parameters. -/
abbrev State.Inv (s : State) : Prop := s.InvWith params

/-- The seven registers of a voice that only the host writes (R21 to R27). -/
def Voice.hostRegs (v : Voice) : U16 × U16 × U16 × U16 × I16 × I16 × Bool :=
  (v.startBlk, v.pitch, v.adsr1, v.adsr2, v.volL, v.volR, v.revEn)

/-- What an instruction on one voice leaves alone: every other voice, every byte of memory, the output stage, the
latches, the reverb unit and the rest of the command stream. -/
structure FrameVoice (s t : State) (i : Fin 24) : Prop where
  others : ∀ j : Fin 24, j ≠ i → t.voices[j] = s.voices[j]
  mem : ∀ a, memByte t.mem a = memByte s.mem a
  wetQ15 : t.wetQ15 = s.wetQ15
  masterQ14 : t.masterQ14 = s.masterQ14
  latches : t.latches = s.latches
  rev : t.rev = s.rev
  port : t.port = s.port

/-- What a store to the sample memory leaves alone, the bytes of memory apart. -/
structure FrameMem (s t : State) : Prop where
  voices : ∀ j : Fin 24, t.voices[j] = s.voices[j]
  wetQ15 : t.wetQ15 = s.wetQ15
  masterQ14 : t.masterQ14 = s.masterQ14
  latches : t.latches = s.latches
  rev : t.rev = s.rev
  port : t.port = s.port

/-- What an instruction on the reverb unit leaves alone. -/
structure FrameRev (s t : State) : Prop where
  voices : ∀ j : Fin 24, t.voices[j] = s.voices[j]
  mem : ∀ a, memByte t.mem a = memByte s.mem a
  wetQ15 : t.wetQ15 = s.wetQ15
  masterQ14 : t.masterQ14 = s.masterQ14
  latches : t.latches = s.latches
  port : t.port = s.port

/-- The voice operand names voice `i` (R96). -/
def Names (idx : Byte) (i : Fin 24) : Prop := idx.toNat = i.val

/-- The same state with every voice but one idle: what R194 calls running a voice alone. -/
def State.solo (s : State) (j : Fin 24) : State :=
  { s with voices := Vector.ofFn fun i => if i = j then s.voices[i] else voiceOff s.voices[i] }

/-- Run an instruction after an outcome. -/
def andThen (o : Out) (i : Instr) : Out :=
  match o with
  | .next s => exec i s
  | .fault f => .fault f
  | .refused r => .refused r

end Sys2Proof.Machine
end

