-- ==== Sys2Proof/Certificates/Slice0/Obligations.lean ====
section
/-! DEFINITION. The statements for the provers. Each cites the rules of spec/ it rests on; a clause about the port, the
result field or a lone pipeline word is the model's own choice (notes/assumptions/1.md and 2.md). -/

open Sys2Proof Sys2Proof.Machine

/-! ### Encoding and step -/

/-- Decoding the encoding of an instruction gives it back, with every operand at every value; every term of `Instr` is
well formed by its type (WellFormed.lean). -/
def Obligations.DecodeOfEncode : Prop := ∀ i : Instr, decode (encode i) = .ok i

/-- Decoding then encoding: a header byte and a flags byte (R82, R84) are written back bit for bit, a command word with the
same opcode as a word that decodes to the same command. That an envelope word is an instruction and keeps bit 13 as an
operand is the model's choice (notes/assumptions/2.md), so it is written back with that bit. Packing and unpacking
`AdsrParams` is as R87 has it: no parameter is lost, and the field-less bit 13 of ADSR2 comes back 0. -/
def Obligations.EncodeOfDecode : Prop :=
  (∀ (lane : Fin 24) (b : Byte) (i : Instr), decode (.hdr lane b) = .ok i → encode i = .hdr lane b) ∧
  (∀ (lane : Fin 24) (b : Byte) (i : Instr), decode (.flags lane b) = .ok i → encode i = .flags lane b) ∧
  (∀ (lane : Fin 24) (w : U16) (i : Instr), decode (.adsr1 lane w) = .ok i → encode i = .adsr1 lane w) ∧
  (∀ (lane : Fin 24) (w : U16) (i : Instr), decode (.adsr2 lane w) = .ok i → encode i = .adsr2 lane w) ∧
  (∀ (w : CmdWord) (i : Instr), decode (.cmd w) = .ok i →
    ∃ w', encode i = .cmd w' ∧ cmdOp w' = cmdOp w ∧ decode (.cmd w') = .ok i) ∧
  (∀ a : AdsrParams, unpackAdsr (packAdsr a).1 (packAdsr a).2 = a) ∧
  (∀ w1 w2 : U16, packAdsr (unpackAdsr w1 w2) = (w1, w2 &&& 0xDFFF))

/-- R97 with the column "fields used" of R94: two words with the same opcode that agree on the fields it uses decode
alike, and the encoder writes the fields it does not use as 0. -/
def Obligations.UnusedFieldsAreIgnored : Prop :=
  let usesIdx : List Nat := [0x10, 0x11, 0x20, 0x21, 0x22, 0x23, 0x24, 0x25, 0x26, 0x30, 0x31]
  let usesData : List Nat := [0x20, 0x21, 0x22, 0x23, 0x24, 0x25, 0x26, 0x30, 0x38, 0x39, 0x40, 0x41]
  let usesAddr : List Nat := [0x40, 0x41, 0x42, 0x43]
  (∀ w w' : CmdWord, cmdOp w = cmdOp w' →
    ((cmdOp w).toNat ∈ usesIdx → cmdIdx w = cmdIdx w') →
    ((cmdOp w).toNat ∈ usesData → cmdData w = cmdData w') →
    ((cmdOp w).toNat ∈ usesAddr → cmdAddr w = cmdAddr w') →
    decode (.cmd w) = decode (.cmd w')) ∧
  (∀ (i : Instr) (w : CmdWord), encode i = .cmd w →
    ((cmdOp w).toNat ∉ usesIdx → cmdIdx w = 0) ∧ ((cmdOp w).toNat ∉ usesData → cmdData w = 0) ∧
    ((cmdOp w).toNat ∉ usesAddr → cmdAddr w = 0))

/-- R95: a command word whose opcode is in one of the reserved ranges is refused; every other opcode decodes. -/
def Obligations.ReservedOpcodesAreRefused : Prop :=
  let reserved : Nat → Prop := fun n =>
    (0x02 ≤ n ∧ n ≤ 0x0F) ∨ (0x13 ≤ n ∧ n ≤ 0x1F) ∨ (0x27 ≤ n ∧ n ≤ 0x2F) ∨ (0x33 ≤ n ∧ n ≤ 0x37) ∨
    (0x3A ≤ n ∧ n ≤ 0x3F) ∨ (0x44 ≤ n ∧ n ≤ 0xFF)
  (∀ (s : State) (w : CmdWord) (rest : List Item), s.port = .cmd w :: rest → reserved (cmdOp w).toNat →
    step s = .refused (.reservedOpcode (cmdOp w))) ∧
  (∀ w : CmdWord, ¬ reserved (cmdOp w).toNat → ∃ i, decode (.cmd w) = .ok i)

/-- When the item at the head of the port decodes to an instruction, the step is that instruction's execution, on the state
without the item. -/
def Obligations.StepRunsTheDecodedInstruction : Prop :=
  ∀ (s : State) (it : Item) (rest : List Item) (i : Instr), s.port = it :: rest → decode it = .ok i →
    step s = exec i { s with port := rest }

/-- A few of the words of 95_test_vectors.md X1 and of the opcode table decode to what they stand for. -/
def Obligations.WordsOfTheSpecDecode : Prop :=
  decode (.cmd 0x2103100000000000) = .ok (.setPitch 3 0x1000) ∧
  decode (.cmd 0x30026D8000000000) = .ok (.revWrite 2 0x6D80) ∧
  decode (.cmd 0x4000003400080001) = .ok (.memWr8 0x80001 0x34) ∧
  decode (.cmd 0x01FFFFFFFFFFFFFF) = .ok .tick ∧
  decode (.hdr 5 0xDD) = .ok (.adpcmHdrF5 5 true 13) ∧
  decode (.flags 0 0x07) = .ok (.adpcmFlagsLoop 0 0 true) ∧
  decode (.adsr1 1 0x8F1F) = .ok (.adsr1Word 1 true 3 3 1 15)

/-- R300: no step faults, and the only stop is a reserved opcode. -/
def Obligations.OnlyReservedOpcodesStopTheBlock : Prop :=
  (∀ (s : State) (f : Fault), step s ≠ .fault f) ∧
  (∀ (s : State) (r : Refusal), step s = .refused r →
    ∃ w rest, s.port = .cmd w :: rest ∧ decode (.cmd w) = .error (.reservedOpcode (cmdOp w)) ∧
      Item.wf (.cmd w) = false ∧ r = .reservedOpcode (cmdOp w))

/-- Every instruction, on every state and with every operand, completes, with every parameter set of R6; `exec` is the
machine with the default set. -/
def Obligations.EveryInstructionCompletes : Prop :=
  ∀ (i : Instr) (s : State), Completes (exec i s) ∧ exec i s = execWith params i s ∧
    ∀ p : Config.Params, Completes (execWith p i s)

/-! ### Reset and invariants -/

/-- R320: every element of the state that the spec gives, at its reset value. -/
def Obligations.ResetValues : Prop :=
  (∀ j : Fin 24, State.reset.voices[j].hostRegs = (0, 0, 0, 0, 0, 0, false) ∧
    State.reset.voices[j].active = false ∧ State.reset.voices[j].phase = .off ∧
    State.reset.voices[j].level = 0 ∧ State.reset.voices[j].envCnt = 0 ∧
    State.reset.voices[j].curAddr = 0 ∧ State.reset.voices[j].loopAddr = 0 ∧
    State.reset.voices[j].blkFlags = 0 ∧ State.reset.voices[j].hasBlock = false ∧
    State.reset.voices[j].pcount = 0 ∧ State.reset.voices[j].sidx = 0 ∧
    (∀ k : Fin 28, State.reset.voices[j].dec[k] = 0) ∧ (∀ k : Fin 3, State.reset.voices[j].carry[k] = 0) ∧
    State.reset.voices[j].prev1 = 0 ∧ State.reset.voices[j].prev2 = 0) ∧
  (∀ a, memByte State.reset.mem a = 0) ∧
  State.reset.wetQ15 = 0 ∧ State.reset.masterQ14 = 0 ∧
  State.reset.latches = { dryL := 0, dryR := 0, revinL := 0, revinR := 0, wetL := 0, wetR := 0, outL := 0, outR := 0 } ∧
  State.reset.rev.len = 0 ∧ (∀ k : Fin 32, State.reset.rev.reg[k] = 0) ∧
  (∀ a, cellRead State.reset.rev.buf a = 0) ∧ State.reset.rev.cur = 0 ∧ State.reset.rev.phase = false ∧
  (∀ k : Fin 39, State.reset.rev.dsL[k] = 0 ∧ State.reset.rev.dsR[k] = 0) ∧
  (∀ k : Fin 20, State.reset.rev.usL[k] = 0 ∧ State.reset.rev.usR[k] = 0)

/-- The invariants hold at reset. -/
def Obligations.ResetHasTheInvariants : Prop := State.reset.Inv

/-- Every step keeps the invariants of R51 and the canonical form of both memories, with the default parameters and with
every parameter set of R6. -/
def Obligations.StepKeepsTheInvariants : Prop :=
  (∀ s t : State, s.Inv → step s = .next t → t.Inv) ∧
  ∀ (p : Config.Params) (s t : State), s.InvWith p → stepWith p s = .next t → t.InvWith p

/-! ### The registers of a voice -/

/-- R236 to R242: each of the seven register writes sets its register of the voice named, and nothing else. -/
def Obligations.VoiceRegisterWrites : Prop :=
  ∀ (s : State) (i : Fin 24) (idx : Byte) (d : U16), Names idx i →
    (∃ t, exec (.setStart idx d) s = .next t ∧ FrameVoice s t i ∧
      t.voices[i] = { s.voices[i] with startBlk := d }) ∧
    (∃ t, exec (.setPitch idx d) s = .next t ∧ FrameVoice s t i ∧
      t.voices[i] = { s.voices[i] with pitch := d }) ∧
    (∃ t, exec (.setAdsr1 idx d) s = .next t ∧ FrameVoice s t i ∧
      t.voices[i] = { s.voices[i] with adsr1 := d }) ∧
    (∃ t, exec (.setAdsr2 idx d) s = .next t ∧ FrameVoice s t i ∧
      t.voices[i] = { s.voices[i] with adsr2 := d }) ∧
    (∃ t, exec (.setVolL idx d) s = .next t ∧ FrameVoice s t i ∧
      t.voices[i] = { s.voices[i] with volL := d }) ∧
    (∃ t, exec (.setVolR idx d) s = .next t ∧ FrameVoice s t i ∧
      t.voices[i] = { s.voices[i] with volR := d }) ∧
    (∃ t, exec (.setReverbEn idx d) s = .next t ∧ FrameVoice s t i ∧
      t.voices[i] = { s.voices[i] with revEn := decide (d.toNat % 2 = 1) })

/-- R96: a voice index of 24 or more, a reverb register index of 33 or more and a preset index not below the number of
presets leave the block as it was. -/
def Obligations.IndexOutOfRangeIsIgnored : Prop :=
  let ignored : Instr → Prop := fun i => ∀ s : State, ∃ t, exec i s = .next t ∧ { t with result := s.result } = s
  (∀ (idx : Byte) (d : U16), 24 ≤ idx.toNat →
    ignored (.keyOn idx) ∧ ignored (.keyOff idx) ∧ ignored (.setStart idx d) ∧ ignored (.setPitch idx d) ∧
    ignored (.setAdsr1 idx d) ∧ ignored (.setAdsr2 idx d) ∧ ignored (.setVolL idx d) ∧ ignored (.setVolR idx d) ∧
    ignored (.setReverbEn idx d)) ∧
  (∀ (idx : Byte) (d : U16), 33 ≤ idx.toNat → ignored (.revWrite idx d)) ∧
  (∀ idx : Byte, params.reverbPresets.length ≤ idx.toNat → ignored (.revPreset idx))

/-! ### Keying -/

/-- R233: KEY_ON resets all internal elements of its voice, takes the start address and fetches nothing; an index of 24
or more is ignored. -/
def Obligations.KeyOnArmsItsVoice : Prop :=
  (∀ (s : State) (idx : Byte), 24 ≤ idx.toNat →
    ∃ t, exec (.keyOn idx) s = .next t ∧ { t with result := s.result } = s) ∧
  ∀ (s : State) (i : Fin 24) (idx : Byte), Names idx i →
    ∃ t, exec (.keyOn idx) s = .next t ∧ FrameVoice s t i ∧
      t.voices[i].hostRegs = s.voices[i].hostRegs ∧
      t.voices[i].active = true ∧ t.voices[i].phase = .attack ∧ t.voices[i].level = 0 ∧ t.voices[i].envCnt = 0 ∧
      t.voices[i].curAddr.toNat = (s.voices[i].startBlk.toNat * 16) % 524288 ∧
      t.voices[i].loopAddr = t.voices[i].curAddr ∧ t.voices[i].blkFlags = 0 ∧ t.voices[i].hasBlock = false ∧
      (∀ k : Fin 28, t.voices[i].dec[k] = 0) ∧ (∀ k : Fin 3, t.voices[i].carry[k] = 0) ∧
      t.voices[i].prev1 = 0 ∧ t.voices[i].prev2 = 0 ∧ t.voices[i].sidx = 0 ∧ t.voices[i].pcount = 0

/-- R234: KEY_OFF sends an active voice in Attack, Decay or Sustain to Release with its level kept, and does nothing to
any other voice; an index of 24 or more is ignored. -/
def Obligations.KeyOffReleases : Prop :=
  (∀ (s : State) (idx : Byte), 24 ≤ idx.toNat →
    ∃ t, exec (.keyOff idx) s = .next t ∧ { t with result := s.result } = s) ∧
  ∀ (s : State) (i : Fin 24) (idx : Byte), Names idx i →
    ∃ t, exec (.keyOff idx) s = .next t ∧ FrameVoice s t i ∧
      (s.voices[i].active = true →
        (s.voices[i].phase = .attack ∨ s.voices[i].phase = .decay ∨ s.voices[i].phase = .sustain) →
        t.voices[i] = { s.voices[i] with phase := .release, envCnt := 0 }) ∧
      ((s.voices[i].active = false ∨ s.voices[i].phase = .release ∨ s.voices[i].phase = .off) →
        t.voices[i] = s.voices[i])

/-- R235: ALL_KEY_OFF is KEY_OFF for every voice, one after another. -/
def Obligations.AllKeyOffIsKeyOffForEveryVoice : Prop :=
  ∀ s : State, exec .allKeyOff s =
    (List.range 24).foldl (fun o k => andThen o (.keyOff (BitVec.ofNat 8 k))) (.next s)

/-- KEY_ON then KEY_OFF with no tick between leaves the voice in Release at level 0, and the next tick, silent, takes it
to Off whatever the release rate. -/
def Obligations.KeyOnThenKeyOffIsOffAfterOneTick : Prop :=
  ∀ (s : State) (i : Fin 24) (idx : Byte), Names idx i →
    ∃ u t, andThen (exec (.keyOn idx) s) (.keyOff idx) = .next u ∧ exec .tick u = .next t ∧
      u.voices[i].phase = .release ∧ u.voices[i].level = 0 ∧
      (voiceTick params u.mem u.voices[i]).left = 0 ∧ (voiceTick params u.mem u.voices[i]).right = 0 ∧
      t.voices[i].active = false ∧ t.voices[i].phase = .off ∧ t.voices[i].level = 0

/-! ### The sample memory -/

/-- R248, R249: what every byte reads after a store, and that nothing else changes. Memory is in its canonical form,
which every step keeps. -/
def Obligations.StoresWriteTheirBytes : Prop :=
  ∀ (s : State) (addr : BitVec 32) (d : U16), Memory.wf s.mem = true →
    (∃ t, exec (.memWr8 addr d) s = .next t ∧ FrameMem s t ∧
      ∀ b, memByte t.mem b = if b % 524288 = addr.toNat % 524288 then BitVec.ofNat 8 d.toNat else memByte s.mem b) ∧
    (∃ t, exec (.memWr16 addr d) s = .next t ∧ FrameMem s t ∧
      ∀ b, memByte t.mem b =
        if b % 524288 = addr.toNat % 524288 then BitVec.ofNat 8 d.toNat
        else if b % 524288 = (addr.toNat + 1) % 524288 then BitVec.ofNat 8 (d.toNat / 256)
        else memByte s.mem b)

/-- R250, R251: what a read returns, and that it writes no state. -/
def Obligations.ReadsReturnTheirBytes : Prop :=
  ∀ (s : State) (addr : BitVec 32),
    exec (.memRd8 addr) s = .next { s with result := .byte (memByte s.mem (addr.toNat % 524288)) } ∧
    ∃ h : U16, exec (.memRd16 addr) s = .next { s with result := .half h } ∧
      h.toNat = (memByte s.mem ((addr.toNat + 1) % 524288)).toNat * 256 + (memByte s.mem (addr.toNat % 524288)).toNat

/-- R61: addressing wraps, for the host's accesses and for the block fetch alike. -/
def Obligations.AddressesWrap : Prop :=
  (∀ (s : State) (a b : BitVec 32) (d : U16), a.toNat % 524288 = b.toNat % 524288 →
    exec (.memRd8 a) s = exec (.memRd8 b) s ∧ exec (.memRd16 a) s = exec (.memRd16 b) s ∧
    exec (.memWr8 a d) s = exec (.memWr8 b d) s ∧ exec (.memWr16 a d) s = exec (.memWr16 b d) s) ∧
  (∀ (m : List Host.Cell) (a : Nat), memByte m (a + 524288) = memByte m a ∧ blockData m (a + 524288) = blockData m a)

/-- R40: the sample memory is written by MEM_WR8 and MEM_WR16 alone, and the reverb buffer (R46) by TICK and REV_CLEAR
alone. -/
def Obligations.OnlyTheirWritersWriteTheMemories : Prop :=
  ∀ (i : Instr) (s t : State), exec i s = .next t →
    ((∀ a d, i ≠ .memWr8 a d ∧ i ≠ .memWr16 a d) → ∀ b, memByte t.mem b = memByte s.mem b) ∧
    (i ≠ .tick → i ≠ .revClear → ∀ b, cellRead t.rev.buf b = cellRead s.rev.buf b)

/-- The only commands with a result are TICK, MEM_RD8 and MEM_RD16 (the field `result`, notes/assumptions/1.md). -/
def Obligations.OnlyThreeCommandsHaveAResult : Prop :=
  ∀ (i : Instr) (s t : State), exec i s = .next t →
    (t.result ≠ .none ↔ i = .tick ∨ (∃ a, i = .memRd8 a) ∨ (∃ a, i = .memRd16 a))

/-! ### Reverb registers and output stage -/

/-- R243: REV_WRITE writes one register of the network, or the length with the position brought back into it. -/
def Obligations.RevWriteSetsARegisterOrTheLength : Prop :=
  ∀ (s : State) (idx : Byte) (d : U16),
    (∀ k : Fin 32, idx.toNat = k.val → ∃ t, exec (.revWrite idx d) s = .next t ∧ FrameRev s t ∧
      t.rev.reg[k] = d ∧ (∀ j : Fin 32, j ≠ k → t.rev.reg[j] = s.rev.reg[j]) ∧
      { t.rev with reg := s.rev.reg } = s.rev) ∧
    (idx.toNat = 32 → ∃ t, exec (.revWrite idx d) s = .next t ∧ FrameRev s t ∧
      t.rev.len = min (d.toNat * 4) params.revbufMax ∧ t.rev.cur = (if t.rev.len = 0 then 0 else s.rev.cur % t.rev.len) ∧
      { t.rev with len := s.rev.len, cur := s.rev.cur } = s.rev) ∧
    (33 ≤ idx.toNat → ∃ t, exec (.revWrite idx d) s = .next t ∧ FrameRev s t ∧ t.rev = s.rev)

/-- R244, for every list of presets: a record in range is loaded, an index out of range is ignored. -/
def Obligations.RevPresetLoadsItsRecord : Prop :=
  (∀ (s : State) (idx : Byte), ∃ t, exec (.revPreset idx) s = .next t ∧ FrameRev s t ∧
    t.rev = choosePreset params idx s.rev) ∧
  (∀ (p : Config.Params) (s : State) (idx : Byte), ∃ t, execWith p (.revPreset idx) s = .next t ∧ FrameRev s t ∧
    (∀ h : idx.toNat < p.reverbPresets.length,
      t.rev.reg = p.reverbPresets[idx.toNat].reg ∧ t.rev.len = min p.reverbPresets[idx.toNat].len p.revbufMax ∧
      t.rev.cur = (if t.rev.len = 0 then 0 else s.rev.cur % t.rev.len) ∧
      { t.rev with reg := s.rev.reg, len := s.rev.len, cur := s.rev.cur } = s.rev) ∧
    (p.reverbPresets.length ≤ idx.toNat → t.rev = s.rev))

/-- R245: REV_CLEAR zeroes every delay line, the position and the phase, and keeps registers, length, wet level and
latches. -/
def Obligations.RevClearZeroesTheDelayLines : Prop :=
  ∀ s : State, ∃ t, exec .revClear s = .next t ∧ FrameRev s t ∧
    (∀ a, cellRead t.rev.buf a = 0) ∧
    (∀ k : Fin 39, t.rev.dsL[k] = 0 ∧ t.rev.dsR[k] = 0) ∧ (∀ k : Fin 20, t.rev.usL[k] = 0 ∧ t.rev.usR[k] = 0) ∧
    t.rev.cur = 0 ∧ t.rev.phase = false ∧ t.rev.reg = s.rev.reg ∧ t.rev.len = s.rev.len

/-- R232: NOP changes nothing. SET_WET and SET_MASTER write their register alone. -/
def Obligations.NopAndOutputRegisters : Prop :=
  ∀ (s : State) (d : U16),
    exec .nop s = .next { s with result := .none } ∧
    (∃ t, exec (.setWet d) s = .next t ∧ { t with result := s.result } = { s with wetQ15 := d }) ∧
    (∃ t, exec (.setMaster d) s = .next t ∧ { t with result := s.result } = { s with masterQ14 := d })

/-- R195: the output stage is the exact rational formula, clamped to [-1, 1]. -/
def Obligations.OutputStageIsExact : Prop :=
  ∀ (dry wet : I16) (wq mq : U16),
    outStage dry wet wq mq =
      max (-1) (min 1
        (((dry.toInt : ℚ) * (0x8000 - (min wq.toNat 0x8000 : ℕ)) + (wet.toInt : ℚ) * (min wq.toNat 0x8000 : ℕ)) / 0x8000 *
          ((min mq.toNat 0x8000 : ℕ) / 0x4000) / 32768))

/-! ### The block decode -/

/-- R111, R112: the samples of a block as a recurrence over the integers, for every table of coefficients. -/
def Obligations.DecodeBlockIsTheRecurrence : Prop :=
  ∀ (p : Config.Params) (f : BitVec 3) (sh : BitVec 4) (data : Vector Byte 14) (p1 p2 : I16),
    let shift := if sh.toNat ≤ 12 then sh.toNat else p.shiftFallback.val
    let filter := if f.toNat ≤ 4 then f.toNat else 4
    let r := decodeBlock p f sh data p1 p2
    let before1 : Fin 28 → Int := fun k => if h : 1 ≤ k.val then (r.1[k.val - 1]).toInt else p1.toInt
    let before2 : Fin 28 → Int := fun k =>
      if h : 2 ≤ k.val then (r.1[k.val - 2]).toInt else if k.val = 1 then p1.toInt else p2.toInt
    let nib : Fin 28 → BitVec 4 := fun k =>
      if k.val % 2 = 0 then (data[k.val / 2]).extractLsb' 0 4 else (data[k.val / 2]).extractLsb' 4 4
    (∀ k : Fin 28, (r.1[k]).toInt =
      max (-32768) (min 32767 ((nib k).toInt * 4096 / 2 ^ shift + before1 k * p.filterPos filter / 64 +
        before2 k * p.filterNeg filter / 64))) ∧
    r.2.1 = r.1[27] ∧ r.2.2 = r.1[26]

/-- Blocks of zero nibbles: from a zero predictor they decode to silence with any header and any table; with a filter
whose coefficients are 0 they do so from any predictor. -/
def Obligations.ZeroNibblesDecodeToSilence : Prop :=
  ∀ (p : Config.Params) (f : BitVec 3) (sh : BitVec 4) (p1 p2 : I16),
    decodeBlock p f sh (Vector.replicate 14 0) 0 0 = (Vector.replicate 28 0, 0, 0) ∧
    (p.filterPos (effFilter f) = 0 → p.filterNeg (effFilter f) = 0 →
      decodeBlock p f sh (Vector.replicate 14 0) p1 p2 = (Vector.replicate 28 0, 0, 0))

/-! ### The sample stream of a voice -/

/-- R132, R133: what a fetch does with the sixteen bytes at the cursor, what it leaves alone, and that the tick of
an active voice without a block begins with it. -/
def Obligations.FetchLoadsTheBlock : Prop :=
  ∀ (p : Config.Params) (m : List Host.Cell) (v : Voice),
    let B : Nat → Byte := fun k => memByte m (v.curAddr.toNat + k)
    let d := decodeBlock p ((B 0).extractLsb' 4 3) ((B 0).extractLsb' 0 4) (Vector.ofFn fun k : Fin 14 => B (2 + k.val))
      v.prev1 v.prev2
    fetch p m v =
      { v with
        carry := #v[v.dec[25], v.dec[26], v.dec[27]]
        dec := d.1, prev1 := d.2.1, prev2 := d.2.2
        blkFlags := (B 1).extractLsb' 0 3
        loopAddr := if (B 1).getLsbD 2 then v.curAddr else v.loopAddr
        hasBlock := true } ∧
    (v.active = true → v.hasBlock = false → voiceTick p m v = voiceTick p m (fetch p m v))

/-- The interpolator over the last four samples up to the cursor, reaching back into the block before (R135): the exact
sum, shifted once, for every table whose rows meet R135's bound (weights' magnitudes summing to less than 32768), as those
of the default table do (notes/assumptions/6.md). For any other table the model takes the clamp that R135 allows
(notes/assumptions/17.md). -/
def Obligations.InterpolateIsTheWeightedSum : Prop :=
  let bounded : Config.Params → Prop := fun p => ∀ n, n < 256 →
    |p.gauss (255 - n)| + |p.gauss (511 - n)| + |p.gauss (256 + n)| + |p.gauss n| < 32768
  let exact : Config.Params → Voice → Int := fun p v =>
    let n := v.pcount.toNat / 16 % 256
    let s : Nat → Int := fun k =>
      if h : v.sidx.val + k < 3 then (v.carry[v.sidx.val + k]).toInt
      else if h' : v.sidx.val + k - 3 < 28 then (v.dec[v.sidx.val + k - 3]).toInt else 0
    (p.gauss (255 - n) * s 0 + p.gauss (511 - n) * s 1 + p.gauss (256 + n) * s 2 + p.gauss n * s 3) / 32768
  (∀ (p : Config.Params) (v : Voice), bounded p → interpolate p v = exact p v) ∧
  (∀ (p : Config.Params) (v : Voice), interpolate p v = max (-32768) (min 32767 (exact p v))) ∧
  bounded params

/-- R137: the pitch counter keeps the fraction, whole samples move the cursor, and leaving the block ends it; at most
four samples in a tick. -/
def Obligations.AdvanceMovesTheCursor : Prop :=
  ∀ v : Voice, v.pcount.toNat < 0x1000 →
    let total := v.pcount.toNat + min v.pitch.toNat 0x3FFF
    let next := v.sidx.val + total / 0x1000
    total ≤ 0x4FFE ∧ total / 0x1000 ≤ 4 ∧
    (next < 28 → advance v = { v with pcount := BitVec.ofNat 16 (total % 0x1000), sidx := Fin.ofNat 28 next }) ∧
    (28 ≤ next → next - 28 ≤ 3 ∧
      advance v = blockEnd { v with pcount := BitVec.ofNat 16 (total % 0x1000), sidx := Fin.ofNat 28 (next - 28) })

/-- Rate of play: over `T` ticks at a constant pitch the cursor moves by the whole part of the accumulated pitch, and
the counter keeps its fraction. -/
def Obligations.RateOfPlay : Prop :=
  ∀ (v : Voice) (T : Nat), v.pcount.toNat < 0x1000 →
    (advance^[T] v).pcount.toNat = (v.pcount.toNat + T * min v.pitch.toNat 0x3FFF) % 0x1000 ∧
    (advance^[T] v).sidx.val = (v.sidx.val + (v.pcount.toNat + T * min v.pitch.toNat 0x3FFF) / 0x1000) % 28

/-- R138, R139: where the cursor goes at the end of a block, and when the voice stops. -/
def Obligations.BlockEndFollowsTheFlags : Prop :=
  ∀ v : Voice,
    (v.blkFlags.getLsbD 0 = false → ∃ a : BitVec 19, a.toNat = (v.curAddr.toNat + 16) % 524288 ∧
      blockEnd v = { v with hasBlock := false, curAddr := a }) ∧
    (v.blkFlags.getLsbD 0 = true → v.blkFlags.getLsbD 1 = true →
      blockEnd v = { v with hasBlock := false, curAddr := v.loopAddr }) ∧
    (v.blkFlags.getLsbD 0 = true → v.blkFlags.getLsbD 1 = false →
      blockEnd v = { v with hasBlock := false, curAddr := v.loopAddr, active := false, phase := .off, level := 0,
                            envCnt := 0 })

/-! ### The envelope -/

/-- R152 with the bit positions of R88 and R89 (PRESUMED, notes/assumptions/9.md), in numbers: rate, direction, mode and largest rate of each phase. -/
def Obligations.PhaseParametersFromTheWords : Prop :=
  ∀ a1 a2 : U16,
    phaseParams a1 a2 .attack = some
      { rate := a1.toNat / 1024 % 32 * 4 + a1.toNat / 256 % 4, decreasing := false,
        exponential := decide (0x8000 ≤ a1.toNat), rateMax := 127 } ∧
    phaseParams a1 a2 .decay = some
      { rate := a1.toNat / 16 % 16 * 4, decreasing := true, exponential := true, rateMax := 60 } ∧
    phaseParams a1 a2 .sustain = some
      { rate := a2.toNat / 256 % 32 * 4 + a2.toNat / 64 % 4, decreasing := decide (a2.toNat / 16384 % 2 = 1),
        exponential := decide (0x8000 ≤ a2.toNat), rateMax := 127 } ∧
    phaseParams a1 a2 .release = some
      { rate := a2.toNat % 32 * 4, decreasing := true, exponential := decide (a2.toNat / 32 % 2 = 1), rateMax := 124 } ∧
    phaseParams a1 a2 .off = none

/-- R90: the level at which Decay ends. -/
def Obligations.SustainTargetValues : Prop :=
  ∀ a1 : U16, sustainTarget a1 = min ((((sustainLevel a1).toNat + 1) <<< 11 : ℕ) : Int) 0x7FFF ∧
    (sustainLevel a1 = 14 → sustainTarget a1 = 0x7800) ∧ (sustainLevel a1 = 15 → sustainTarget a1 = 0x7FFF)

/-- R155, R156: the counter waits until bit 15 is set; then it returns to 0 and the level moves, floored in a decreasing
phase and clamped in an increasing one. -/
def Obligations.EnvelopeCounterAndLevel : Prop :=
  ∀ (q : PhaseParams) (v : Voice), v.envCnt.toNat < 0x8000 → 0 ≤ v.level.toInt →
    let b := envBase q.rate q.decreasing q.rateMax
    let a := envAdjust b.1 b.2 q.rate q.decreasing q.exponential v.level.toInt
    (v.envCnt.toNat + a.2 < 0x8000 → envCount q v = { v with envCnt := BitVec.ofNat 16 (v.envCnt.toNat + a.2) }) ∧
    (0x8000 ≤ v.envCnt.toNat + a.2 → ∃ l : I16, envCount q v = { v with envCnt := 0, level := l } ∧
      l.toInt = if q.decreasing then max (v.level.toInt + a.1) 0
        else max (-32768) (min 32767 (v.level.toInt + a.1)))

/-- R153 and R154: the step and the increment of every rate, in both directions, and what the exponential mode makes of
them at every level. -/
def Obligations.EnvelopeStepAndIncrementValues : Prop :=
  (∀ (rate rateMax : Nat) (decreasing : Bool),
    let m : Int := if decreasing then -(7 - (rate % 4 : ℕ)) else 7 - (rate % 4 : ℕ)
    envBase rate decreasing rateMax =
      (if rate < 44 then m * 2 ^ (11 - rate / 4) else m,
        if rate < 48 then 0x8000 else if rate < 108 then 2 ^ (26 - rate / 4) else if rate = rateMax then 0 else 1)) ∧
  (∀ (step level : Int) (inc rate : Nat),
    (∀ decreasing, envAdjust step inc rate decreasing false level = (step, inc)) ∧
    envAdjust step inc rate true true level = (step * level / 32768, inc) ∧
    (level < 0x6000 → envAdjust step inc rate false true level = (step, inc)) ∧
    (0x6000 ≤ level → rate < 40 → envAdjust step inc rate false true level = (step / 4, inc)) ∧
    (0x6000 ≤ level → 40 ≤ rate → rate < 44 → envAdjust step inc rate false true level = (step / 2, inc / 2)) ∧
    (0x6000 ≤ level → 44 ≤ rate → envAdjust step inc rate false true level = (step, inc / 4)))

/-- R157: the parameters are those of the phase, the counter and the level move (`EnvelopeCounterAndLevel`), and then at
most one transition is made, exactly when its condition holds of the new level. -/
def Obligations.EnvelopeTransitionsAreExact : Prop :=
  ∀ v : Voice,
    (∀ q, phaseParams v.adsr1 v.adsr2 v.phase = some q →
      let c := envCount q v
      (v.phase = .attack → envStep v = if 0x7FFF ≤ c.level.toInt then { c with phase := .decay, envCnt := 0 } else c) ∧
      (v.phase = .decay →
        envStep v = if c.level.toInt ≤ sustainTarget v.adsr1 then { c with phase := .sustain, envCnt := 0 } else c) ∧
      (v.phase = .sustain → envStep v = c) ∧
      (v.phase = .release →
        envStep v = if c.level = 0 then { c with active := false, phase := .off, level := 0, envCnt := 0 } else c)) ∧
    (v.phase = .off → envStep v = v)

/-- A linear increasing Sustain at a rate of 48 to 107 changes its level by `7 - (rate & 3)` in every
`2^((rate >> 2) - 11)`-th tick and not before. -/
def Obligations.SlowRatesStepEveryPowerOfTwo : Prop :=
  ∀ (v : Voice) (q : PhaseParams), phaseParams v.adsr1 v.adsr2 .sustain = some q → v.phase = .sustain →
    q.decreasing = false → q.exponential = false → 48 ≤ q.rate → q.rate < 108 → v.envCnt = 0 →
    0 ≤ v.level.toInt → v.level.toInt ≤ 32760 →
    (∀ n, n < 2 ^ (q.rate / 4 - 11) → (envStep^[n] v).level = v.level) ∧
    (envStep^[2 ^ (q.rate / 4 - 11)] v).level.toInt = v.level.toInt + (7 - (q.rate % 4 : ℕ)) ∧
    (envStep^[2 ^ (q.rate / 4 - 11)] v).envCnt = 0

/-- Each due change of an exponential decrease lowers a positive level by at least 1 and leaves 0 at 0 (R165). Whether a
change is ever due is the counter's business: at release shift 31 none is (`ReleaseAtTheLargestRateNeverEnds`). -/
def Obligations.ExponentialDecreaseAlwaysFalls : Prop :=
  ∀ (rate rateMax : Nat) (inc : Nat) (level : Int), 0 ≤ level → level ≤ 32767 →
    let ts := (envAdjust (envBase rate true rateMax).1 inc rate true true level).1
    (0 < level → (envLevel true level ts).toInt ≤ level - 1) ∧ (level = 0 → (envLevel true level ts).toInt = 0)

/-- A Release at a rate below 48 takes its voice to Off within as many ticks as its level, plus one. -/
def Obligations.ReleaseReachesOff : Prop :=
  ∀ v : Voice, v.Inv → v.phase = .release → v.adsr2.toNat % 32 < 12 →
    ∃ n : Nat, (n : Int) ≤ v.level.toInt + 1 ∧ (envStep^[n] v).phase = .off ∧ (envStep^[n] v).active = false

/-- A Release with release shift 31 and a non-zero level never ends by itself. -/
def Obligations.ReleaseAtTheLargestRateNeverEnds : Prop :=
  ∀ (v : Voice) (n : Nat), v.Inv → v.phase = .release → v.level ≠ 0 → v.adsr2.toNat % 32 = 31 →
    (envStep^[n] v).phase = .release ∧ (envStep^[n] v).level = v.level

/-- An exponential Attack at a rate of 100 or more stands still from level 0x6000 on. -/
def Obligations.ExponentialAttackStalls : Prop :=
  ∀ (v : Voice) (q : PhaseParams), v.Inv → v.phase = .attack → phaseParams v.adsr1 v.adsr2 .attack = some q →
    q.exponential = true → 100 ≤ q.rate → 0x6000 ≤ v.level.toInt → v.level.toInt < 0x7FFF → envStep v = v

/-- The complete list of phase transitions: whatever instruction runs, a voice changes phase only as the table of R151
has it, each line with its condition. (The last case, a lone flags word, is the model's own, notes/assumptions/2.md.) -/
def Obligations.PhaseTransitionsAreComplete : Prop :=
  ∀ (i : Instr) (s t : State) (j : Fin 24), exec i s = .next t → t.voices[j].phase ≠ s.voices[j].phase →
    (t.voices[j].phase = .attack ∧ t.voices[j].level = 0 ∧ ∃ idx, i = .keyOn idx ∧ Names idx j) ∨
    (t.voices[j].phase = .release ∧ s.voices[j].active = true ∧
      (s.voices[j].phase = .attack ∨ s.voices[j].phase = .decay ∨ s.voices[j].phase = .sustain) ∧
      ((∃ idx, i = .keyOff idx ∧ Names idx j) ∨ i = .allKeyOff)) ∨
    (i = .tick ∧ s.voices[j].phase = .attack ∧ t.voices[j].phase = .decay ∧ 0x7FFF ≤ t.voices[j].level.toInt) ∨
    (i = .tick ∧ s.voices[j].phase = .decay ∧ t.voices[j].phase = .sustain ∧
      t.voices[j].level.toInt ≤ sustainTarget s.voices[j].adsr1) ∨
    (s.voices[j].phase ≠ .off ∧ t.voices[j].phase = .off ∧ t.voices[j].active = false ∧ t.voices[j].level = 0 ∧
      ((i = .tick ∧ s.voices[j].phase = .release ∧
          ∃ q, phaseParams s.voices[j].adsr1 s.voices[j].adsr2 .release = some q ∧
            (envCount q s.voices[j]).level = 0) ∨
        (i = .tick ∧ t.voices[j].blkFlags.getLsbD 0 = true ∧ t.voices[j].blkFlags.getLsbD 1 = false ∧
          28 ≤ s.voices[j].sidx.val +
            wholeSamples (s.voices[j].pcount + BitVec.ofNat 16 (pitchStep s.voices[j].pitch))) ∨
        ∃ ign st, i = .adpcmFlagsStop j ign st))

/-! ### The tick -/

/-- R231: a TICK returns the output latches, gives every voice its own tick, and never writes a register of the host or
the sample memory. -/
def Obligations.TickResultAndFrame : Prop :=
  ∀ s : State, ∃ t, exec .tick s = .next t ∧ t.result = .tick t.latches ∧
    (∀ j : Fin 24, t.voices[j] = (voiceTick params s.mem s.voices[j]).voice ∧
      t.voices[j].hostRegs = s.voices[j].hostRegs) ∧
    (∀ a, memByte t.mem a = memByte s.mem a) ∧ t.wetQ15 = s.wetQ15 ∧ t.masterQ14 = s.masterQ14 ∧
    t.rev.reg = s.rev.reg ∧ t.rev.len = s.rev.len ∧ t.port = s.port ∧
    t.rev = (reverbTick params t.latches.revinL t.latches.revinR s.rev).rev ∧
    t.latches.wetL = (reverbTick params t.latches.revinL t.latches.revinR s.rev).left ∧
    t.latches.wetR = (reverbTick params t.latches.revinL t.latches.revinR s.rev).right ∧
    t.latches.outL = outStage t.latches.dryL t.latches.wetL s.wetQ15 s.masterQ14 ∧
    t.latches.outR = outStage t.latches.dryR t.latches.wetR s.wetQ15 s.masterQ14

/-- R191, R192: the dry bus is the clamped sum over all voices, the reverb-send bus over those whose `rev_en` is set. -/
def Obligations.BusesAreClampedSums : Prop :=
  ∀ s : State, ∃ t, exec .tick s = .next t ∧
    t.latches.dryL.toInt = max (-32768) (min 32767 (∑ j : Fin 24, (voiceTick params s.mem s.voices[j]).left)) ∧
    t.latches.dryR.toInt = max (-32768) (min 32767 (∑ j : Fin 24, (voiceTick params s.mem s.voices[j]).right)) ∧
    t.latches.revinL.toInt = max (-32768) (min 32767
      (∑ j : Fin 24, if s.voices[j].revEn then (voiceTick params s.mem s.voices[j]).left else 0)) ∧
    t.latches.revinR.toInt = max (-32768) (min 32767
      (∑ j : Fin 24, if s.voices[j].revEn then (voiceTick params s.mem s.voices[j]).right else 0))

/-- R180: the order of a voice's part of a tick, with the two multiplications of R181 and R182 as floors. -/
def Obligations.VoiceTickOrder : Prop :=
  ∀ (p : Config.Params) (m : List Host.Cell) (v : Voice), v.active = true →
    let w := if v.hasBlock then v else fetch p m v
    let afterEnv := interpolate p w * w.level.toInt / 32768
    (voiceTick p m v).left = afterEnv * w.volL.toInt / 32768 ∧
    (voiceTick p m v).right = afterEnv * w.volR.toInt / 32768 ∧
    ((envStep w).active = true → (voiceTick p m v).voice = advance (envStep w)) ∧
    ((envStep w).active = false → (voiceTick p m v).voice = envStep w)

/-- R183: an inactive voice contributes nothing and no tick changes it. -/
def Obligations.InactiveVoiceIsFrozen : Prop :=
  ∀ (s : State) (i : Fin 24), s.voices[i].active = false →
    (voiceTick params s.mem s.voices[i]).left = 0 ∧ (voiceTick params s.mem s.voices[i]).right = 0 ∧
    ∃ t, exec .tick s = .next t ∧ t.voices[i] = s.voices[i]

/-- With every table each output of a voice fits sixteen bits in every state with the invariants (95 section 5; for a
table beyond R135's bound by the clamp of notes/assumptions/17.md). -/
def Obligations.VoiceOutputFitsSixteenBits : Prop :=
  ∀ (p : Config.Params) (m : List Host.Cell) (v : Voice), v.Inv →
    -32767 ≤ (voiceTick p m v).left ∧ (voiceTick p m v).left ≤ 32767 ∧
    -32767 ≤ (voiceTick p m v).right ∧ (voiceTick p m v).right ≤ 32767

/-- Mixing linearity (R194), with every parameter set: the dry bus of a tick is the clamped sum of the dry buses of 24
ticks that each run one voice alone, and each voice ends as it does alone. -/
def Obligations.MixIsTheSumOfIsolatedVoices : Prop :=
  ∀ (p : Config.Params) (s : State), s.InvWith p → ∃ (t : State) (u : Fin 24 → State),
    execWith p .tick s = .next t ∧ (∀ j, execWith p .tick (s.solo j) = .next (u j)) ∧
    t.latches.dryL.toInt = max (-32768) (min 32767 (∑ j, (u j).latches.dryL.toInt)) ∧
    t.latches.dryR.toInt = max (-32768) (min 32767 (∑ j, (u j).latches.dryR.toInt)) ∧
    (∀ j : Fin 24, t.voices[j] = (u j).voices[j])

/-- The wet level, the master volume and the latches do not feed back: they change nothing of a tick but the final
outputs; and the dry path does not depend on the reverb unit. -/
def Obligations.OutputStageDoesNotFeedBack : Prop :=
  ∀ s s' : State, s.voices = s'.voices → s.mem = s'.mem →
    ∃ t t', exec .tick s = .next t ∧ exec .tick s' = .next t' ∧ t.voices = t'.voices ∧
      t.latches.dryL = t'.latches.dryL ∧ t.latches.dryR = t'.latches.dryR ∧
      t.latches.revinL = t'.latches.revinL ∧ t.latches.revinR = t'.latches.revinR ∧
      (s.rev = s'.rev → t.rev = t'.rev ∧ t.latches.wetL = t'.latches.wetL ∧ t.latches.wetR = t'.latches.wetR)

/-! ### The reverb unit -/

/-- R201, in the form of a half-band table (R203, R204; any other table takes the general form,
`UpSamplerIsTheGeneralForm`, notes/assumptions/16.md): the input histories shift in every tick; the network runs only in
the ticks that begin with phase 1, on the down-sampled histories (R202), and its output is then pushed into the
up-sampler's histories. -/
def Obligations.ReverbRunsEverySecondTick : Prop :=
  let halfBandTable : Config.Params → Prop := fun p =>
    (∀ k, k < 39 → k % 2 = 1 → k ≠ 19 → p.fir39 k = 0) ∧ p.fir39 19 = 0x4000 ∧
    (∀ k, k ≤ 38 → p.fir39 (38 - k) = p.fir39 k)
  (∀ (p : Config.Params) (h : Vector I16 39),
    (down p h).toInt = max (-32768) (min 32767 ((∑ k : Fin 39, p.fir39 k.val * (h[k]).toInt) / 32768))) ∧
  ∀ (p : Config.Params) (a b : I16) (r : Reverb),
    let t := reverbTick p a b r
    t.rev.phase = !r.phase ∧
    (∀ k : Fin 38, t.rev.dsL[k.val] = r.dsL[k.val + 1] ∧ t.rev.dsR[k.val] = r.dsR[k.val + 1]) ∧
    t.rev.dsL[38] = a ∧ t.rev.dsR[38] = b ∧
    (r.phase = false → { t.rev with dsL := r.dsL, dsR := r.dsR, phase := false } = r ∧
      (halfBandTable p → t.left = r.usL[10] ∧ t.right = r.usR[10])) ∧
    (r.phase = true →
      let c := coreStep (down p t.rev.dsL) (down p t.rev.dsR) { r with dsL := t.rev.dsL, dsR := t.rev.dsR }
      (∀ k : Fin 19, t.rev.usL[k.val] = r.usL[k.val + 1] ∧ t.rev.usR[k.val] = r.usR[k.val + 1]) ∧
      t.rev.usL[19] = c.left ∧ t.rev.usR[19] = c.right ∧ t.rev.buf = c.rev.buf ∧ t.rev.cur = c.rev.cur ∧
      (halfBandTable p → t.left = upFull p t.rev.usL ∧ t.right = upFull p t.rev.usR))

/-- With every table the wet pair is the general zero-stuffed form of R204 over the core outputs, and for every half-band
table, the default one among them, that is the two cases of R201 (notes/assumptions/16.md). -/
def Obligations.UpSamplerIsTheGeneralForm : Prop :=
  let halfBandTable : Config.Params → Prop := fun p =>
    (∀ k, k < 39 → k % 2 = 1 → k ≠ 19 → p.fir39 k = 0) ∧ p.fir39 19 = 0x4000 ∧
    (∀ k, k ≤ 38 → p.fir39 (38 - k) = p.fir39 k)
  let general : Config.Params → Bool → Vector I16 20 → Int := fun p ran u =>
    max (-32768) (min 32767 (2 * (∑ k ∈ Finset.range 39, p.fir39 k *
      (if h : k / 2 < 20 then if (k % 2 = 0 ↔ ran = true) then (u[19 - k / 2]).toInt else 0 else 0)) / 2 ^ 15))
  halfBandTable params ∧
  (∀ (p : Config.Params) (a b : I16) (r : Reverb),
    (reverbTick p a b r).left.toInt = general p r.phase (reverbTick p a b r).rev.usL ∧
    (reverbTick p a b r).right.toInt = general p r.phase (reverbTick p a b r).rev.usR) ∧
  (∀ (p : Config.Params) (u : Vector I16 20), halfBandTable p →
    (upFull p u).toInt = general p true u ∧ (u[10]).toInt = general p false u ∧
    (upFull p u).toInt = max (-32768) (min 32767 ((∑ k : Fin 20, p.fir39 (2 * k.val) * (u[k]).toInt) / 2 ^ 14)))

/-- The core step (R206 to R212, the spec's own arithmetic, notes/assumptions/10.md): it does nothing while the region has
no length; otherwise it moves the position by one halfword round the region, writes the buffer at the eight addresses of
its stages at most, and the buffer and the pair it answers are those of the four reflections, the four comb taps of a side
and its two all-pass stages, in the order of R206, every access going to the buffer as the accesses before it left it. -/
def Obligations.CoreStepWritesEightAddresses : Prop :=
  ∀ (dl dr : I16) (r : Reverb),
    (r.len = 0 → coreStep dl dr r = { rev := r, left := 0, right := 0 }) ∧
    (0 < r.len → (coreStep dl dr r).rev.cur = (r.cur + 1) % r.len ∧
      { (coreStep dl dr r).rev with buf := r.buf, cur := r.cur } = r ∧
      ∀ a, (∀ m ∈ [RevReg.mLSAME, .mRSAME, .mLDIFF, .mRDIFF, .mLAPF1, .mLAPF2, .mRAPF1, .mRAPF2],
          a ≠ revAddr r (revOffset r m)) →
        cellRead (coreStep dl dr r).rev.buf a = cellRead r.buf a) ∧
    (0 < r.len →
      let A : RevReg → Int := fun m => (r.reg[regIndex m].toNat * 4 : ℕ)
      let V : RevReg → Int := fun m => r.reg[regIndex m].toInt
      let pos : Int → Nat := fun off => (((r.cur : Int) + off) % (r.len : Int)).toNat
      let mul : Int → Int → Int := fun a b => a * b / 32768
      let sat : Int → Int := fun x => max (-32768) (min 32767 x)
      let rd : List (Nat × I16) → Int → Int := fun b off => (cellRead b (pos off)).toInt
      let wr : List (Nat × I16) → Int → Int → List (Nat × I16) := fun b off x => cellWrite b (pos off) (BitVec.ofInt 16 x)
      let refl : RevReg → RevReg → Int → List (Nat × I16) → List (Nat × I16) := fun m d x b =>
        wr b (A m) (sat (mul (x + mul (rd b (A d)) (V .vWALL) - rd b (A m - 1)) (V .vIIR) + rd b (A m - 1)))
      let comb : RevReg → RevReg → RevReg → RevReg → List (Nat × I16) → Int := fun m1 m2 m3 m4 b =>
        sat (mul (V .vCOMB1) (rd b (A m1)) + mul (V .vCOMB2) (rd b (A m2)) + mul (V .vCOMB3) (rd b (A m3)) +
          mul (V .vCOMB4) (rd b (A m4)))
      let pass : RevReg → RevReg → RevReg → List (Nat × I16) × Int → List (Nat × I16) × Int := fun m d g bc =>
        let x := rd bc.1 (A m - A d)
        let c := sat (bc.2 - mul (V g) x)
        (wr bc.1 (A m) c, sat (mul c (V g) + x))
      let b1 := refl .mRSAME .dRSAME (mul (V .vRIN) dr.toInt) (refl .mLSAME .dLSAME (mul (V .vLIN) dl.toInt) r.buf)
      let b2 := refl .mRDIFF .dLDIFF (mul (V .vRIN) dr.toInt) (refl .mLDIFF .dRDIFF (mul (V .vLIN) dl.toInt) b1)
      let l := pass .mLAPF2 .dAPF2 .vAPF2 (pass .mLAPF1 .dAPF1 .vAPF1 (b2, comb .mLCOMB1 .mLCOMB2 .mLCOMB3 .mLCOMB4 b2))
      let q := pass .mRAPF2 .dAPF2 .vAPF2
        (pass .mRAPF1 .dAPF1 .vAPF1 (l.1, comb .mRCOMB1 .mRCOMB2 .mRCOMB3 .mRCOMB4 l.1))
      (coreStep dl dr r).rev.buf = q.1 ∧ (coreStep dl dr r).left.toInt = l.2 ∧ (coreStep dl dr r).right.toInt = q.2)

/-- After REV_CLEAR, with zero input, the unit's output is 0 for ever. -/
def Obligations.ClearedReverbStaysSilent : Prop :=
  ∀ (p : Config.Params) (r : Reverb) (n : Nat),
    (reverbTick p 0 0 ((fun x => (reverbTick p 0 0 x).rev)^[n] (clearReverb r))).left = 0 ∧
    (reverbTick p 0 0 ((fun x => (reverbTick p 0 0 x).rev)^[n] (clearReverb r))).right = 0

/-! ### Pipeline words: what a lone word does is the model's own choice (notes/assumptions/2.md) -/

/-- The eight header words decode the block at the cursor of their lane with their filter, if a fetch is due there, and
change nothing otherwise; filters 5 to 7 act as 4 and bit 7 is ignored. -/
def Obligations.HeaderWordsDecodeTheBlock : Prop :=
  let word : BitVec 3 → Fin 24 → Bool → BitVec 4 → Instr := fun f lane b sh =>
    match f.toNat with
    | 0 => .adpcmHdrF0 lane b sh
    | 1 => .adpcmHdrF1 lane b sh
    | 2 => .adpcmHdrF2 lane b sh
    | 3 => .adpcmHdrF3 lane b sh
    | 4 => .adpcmHdrF4 lane b sh
    | 5 => .adpcmHdrF5 lane b sh
    | 6 => .adpcmHdrF6 lane b sh
    | _ => .adpcmHdrF7 lane b sh
  ∀ (s : State) (i : Fin 24) (f : BitVec 3) (b : Bool) (sh : BitVec 4),
    ∃ t, exec (word f i b sh) s = .next t ∧ FrameVoice s t i ∧ t.result = .none ∧
      (s.voices[i].active = true → s.voices[i].hasBlock = false →
        t.voices[i] = loadBlock params (if f.toNat ≤ 4 then f else 4) sh
          (blockData s.mem s.voices[i].curAddr.toNat) s.voices[i]) ∧
      (s.voices[i].active = false ∨ s.voices[i].hasBlock = true → t.voices[i] = s.voices[i])

/-- The three flags words act on an active voice as the fetch and the end of a block with those flags do, and leave an
idle voice alone. -/
def Obligations.FlagsWordsEndTheBlock : Prop :=
  ∀ (s : State) (i : Fin 24) (g : BitVec 5) (st rep : Bool),
    (∃ t, exec (.adpcmFlagsContinue i g st rep) s = .next t ∧ FrameVoice s t i ∧ t.result = .none ∧
      (s.voices[i].active = true → t.voices[i] = { s.voices[i] with
        blkFlags := flagBits st rep false, loopAddr := if st then s.voices[i].curAddr else s.voices[i].loopAddr,
        hasBlock := false, curAddr := s.voices[i].curAddr + 16 }) ∧
      (s.voices[i].active = false → t.voices[i] = s.voices[i])) ∧
    (∃ t, exec (.adpcmFlagsLoop i g st) s = .next t ∧ FrameVoice s t i ∧ t.result = .none ∧
      (s.voices[i].active = true → t.voices[i] = { s.voices[i] with
        blkFlags := flagBits st true true, loopAddr := if st then s.voices[i].curAddr else s.voices[i].loopAddr,
        hasBlock := false, curAddr := if st then s.voices[i].curAddr else s.voices[i].loopAddr }) ∧
      (s.voices[i].active = false → t.voices[i] = s.voices[i])) ∧
    (∃ t, exec (.adpcmFlagsStop i g st) s = .next t ∧ FrameVoice s t i ∧ t.result = .none ∧
      (s.voices[i].active = true → t.voices[i] = { s.voices[i] with
        blkFlags := flagBits st false true, loopAddr := if st then s.voices[i].curAddr else s.voices[i].loopAddr,
        hasBlock := false, curAddr := if st then s.voices[i].curAddr else s.voices[i].loopAddr,
        active := false, phase := .off, level := 0, envCnt := 0 }) ∧
      (s.voices[i].active = false → t.voices[i] = s.voices[i]))

/-- The two envelope words become the contents of their lane's registers, from which the fields are read back. -/
def Obligations.EnvelopeWordsFillTheirRegisters : Prop :=
  ∀ (s : State) (i : Fin 24) (e d u : Bool) (sh5 : BitVec 5) (st : BitVec 2) (sh4 lv : BitVec 4)
    (re : Bool) (rsh : BitVec 5),
    (∃ t w, exec (.adsr1Word i e sh5 st sh4 lv) s = .next t ∧ FrameVoice s t i ∧ t.result = .none ∧
      t.voices[i] = { s.voices[i] with adsr1 := w } ∧
      attackExp w = e ∧ attackShift w = sh5 ∧ attackStep w = st ∧ decayShift w = sh4 ∧ sustainLevel w = lv) ∧
    (∃ t w, exec (.adsr2Word i e d u sh5 st re rsh) s = .next t ∧ FrameVoice s t i ∧ t.result = .none ∧
      t.voices[i] = { s.voices[i] with adsr2 := w } ∧
      sustainExp w = e ∧ sustainDec w = d ∧ adsr2Unused w = u ∧ sustainShift w = sh5 ∧ sustainStep w = st ∧
      releaseExp w = re ∧ releaseShift w = rsh)

/-- A TICK's fetch is its header word followed by the latch of its flags byte: for a voice whose fetch is due, running
the instruction its header byte decodes to and latching the flags gives what the fetch gives. -/
def Obligations.FetchIsTheDecodedHeaderWord : Prop :=
  ∀ (s : State) (i : Fin 24), s.voices[i].active = true → s.voices[i].hasBlock = false →
    ∃ h t, decode (.hdr i (memByte s.mem s.voices[i].curAddr.toNat)) = .ok h ∧ exec h s = .next t ∧
      latchFlags (flagsField (memByte s.mem (s.voices[i].curAddr.toNat + 1))) t.voices[i] =
        fetch params s.mem s.voices[i]
end

