-- ==== Sys2Proof/Laws/Arith.lean ====
section
/-! SUPPORT. The arithmetic primitives: what each can answer, said once. -/

namespace Sys2Proof.Machine

theorem asr_nonneg {a : Int} (n : Nat) (h : 0 ≤ a) : 0 ≤ asr a n :=
  Int.ediv_nonneg h (by positivity)

theorem asr_nonpos {a : Int} (n : Nat) (h : a ≤ 0) : asr a n ≤ 0 :=
  Int.ediv_nonpos_of_nonpos_of_neg h (by positivity)

theorem asr_neg {a : Int} (n : Nat) (h : a < 0) : asr a n ≤ -1 := by
  have : asr a n < 0 := Int.ediv_neg_of_neg_of_pos h (by positivity)
  omega

@[simp] theorem asr_zero_left (n : Nat) : asr 0 n = 0 := by simp [asr]

@[simp] theorem asr_zero_right (a : Int) : asr a 0 = a := by simp [asr]

theorem asr_15 (a : Int) : asr a 15 = a / 32768 := by simp [asr]

@[simp] theorem mulQ15_zero_left (b : Int) : mulQ15 0 b = 0 := by simp [mulQ15]

@[simp] theorem mulQ15_zero_right (a : Int) : mulQ15 a 0 = 0 := by simp [mulQ15]

theorem clamp_le {x lo hi : Int} (h : lo ≤ hi) : clamp x lo hi ≤ hi := by
  unfold clamp; split <;> [omega; split <;> omega]

theorem le_clamp {x lo hi : Int} (h : lo ≤ hi) : lo ≤ clamp x lo hi := by
  unfold clamp; split <;> [omega; split <;> omega]

theorem clamp_of_mem {x lo hi : Int} (h1 : lo ≤ x) (h2 : x ≤ hi) : clamp x lo hi = x := by
  unfold clamp; rw [if_neg (by omega), if_neg (by omega)]

theorem sat16_le (x : Int) : sat16 x ≤ 32767 := clamp_le (by omega)

theorem le_sat16 (x : Int) : -32768 ≤ sat16 x := le_clamp (by omega)

theorem sat16_of_mem {x : Int} (h1 : -32768 ≤ x) (h2 : x ≤ 32767) : sat16 x = x := clamp_of_mem h1 h2

@[simp] theorem sat16_zero : sat16 0 = 0 := by decide

/-- A number that fits comes back from the sixteen bits it is stored in. -/
theorem toInt_ofInt16 {x : Int} (h1 : -32768 ≤ x) (h2 : x ≤ 32767) : (BitVec.ofInt 16 x).toInt = x := by
  rw [BitVec.toInt_ofInt, Int.bmod_def]; norm_num; split <;> omega

/-- A stored clamp reads back as the clamp. -/
@[simp] theorem toInt_satI16 (x : Int) : (satI16 x).toInt = sat16 x :=
  toInt_ofInt16 (le_sat16 x) (sat16_le x)

@[simp] theorem satI16_zero : satI16 0 = 0 := by decide

theorem le_toInt_i16 (x : I16) : -32768 ≤ x.toInt := by
  have := @BitVec.le_toInt 16 x; norm_num at this; exact this

theorem toInt_i16_le (x : I16) : x.toInt ≤ 32767 := by
  have := @BitVec.toInt_lt 16 x; norm_num at this; omega

end Sys2Proof.Machine
end

