-- ==== Sys2Proof/Laws/Configured.lean ====
section
/-! SUPPORT. The machine with the default parameters is the configured machine at those parameters. -/

namespace Sys2Proof.Machine

theorem execWith_params (i : Instr) (s : State) : execWith params i s = exec i s := by cases i <;> rfl

theorem stepWith_params (s : State) : stepWith params s = step s := by
  unfold stepWith step
  cases s.port with
  | nil => rfl
  | cons it rest => cases h : decode it <;> simp only [h, execWith_params]

end Sys2Proof.Machine
end

