-- ==== Sys2Proof/Laws/Encoding.lean ====
section
/-! SUPPORT. Reading a field back from an assembled word: one lemma per field of each encoding (R82, R84, R88, R89,
R92). -/

namespace Sys2Proof

/-- Every bit of an assembled word, as a bit of one of its fields. -/
theorem getLsbD_cmdWord (op idx : Byte) (data : U16) (addr : BitVec 32) (i : Nat) :
    (cmdWord op idx data addr).getLsbD i =
      if i < 32 then addr.getLsbD i else if i < 48 then data.getLsbD (i - 32)
      else if i < 56 then idx.getLsbD (i - 48) else op.getLsbD (i - 56) := by
  simp only [cmdWord, BitVec.getLsbD_append]
  split_ifs <;> first | rfl | omega

theorem cmdOp_cmdWord (op idx : Byte) (data : U16) (addr : BitVec 32) : cmdOp (cmdWord op idx data addr) = op := by
  apply BitVec.eq_of_getLsbD_eq
  intro i hi
  simp only [cmdOp, BitVec.getLsbD_extractLsb', getLsbD_cmdWord, hi, decide_true, Bool.true_and]
  rw [if_neg (by omega), if_neg (by omega), if_neg (by omega)]; congr 1; omega

theorem cmdIdx_cmdWord (op idx : Byte) (data : U16) (addr : BitVec 32) : cmdIdx (cmdWord op idx data addr) = idx := by
  apply BitVec.eq_of_getLsbD_eq
  intro i hi
  simp only [cmdIdx, BitVec.getLsbD_extractLsb', getLsbD_cmdWord, hi, decide_true, Bool.true_and]
  rw [if_neg (by omega), if_neg (by omega), if_pos (by omega)]; congr 1; omega

theorem cmdData_cmdWord (op idx : Byte) (data : U16) (addr : BitVec 32) :
    cmdData (cmdWord op idx data addr) = data := by
  apply BitVec.eq_of_getLsbD_eq
  intro i hi
  simp only [cmdData, BitVec.getLsbD_extractLsb', getLsbD_cmdWord, hi, decide_true, Bool.true_and]
  rw [if_neg (by omega), if_pos (by omega)]; congr 1; omega

theorem cmdAddr_cmdWord (op idx : Byte) (data : U16) (addr : BitVec 32) :
    cmdAddr (cmdWord op idx data addr) = addr := by
  apply BitVec.eq_of_getLsbD_eq
  intro i hi
  simp only [cmdAddr, BitVec.getLsbD_extractLsb', getLsbD_cmdWord, hi, decide_true, Bool.true_and]
  rw [if_pos (by omega)]; congr 1; omega

theorem headerFilter_headerByte : ∀ (b : Bool) (f : BitVec 3) (s : BitVec 4), headerFilter (headerByte b f s) = f := by
  decide

theorem headerShift_headerByte : ∀ (b : Bool) (f : BitVec 3) (s : BitVec 4), headerShift (headerByte b f s) = s := by
  decide

theorem bit7_headerByte : ∀ (b : Bool) (f : BitVec 3) (s : BitVec 4), (headerByte b f s).getLsbD 7 = b := by
  decide

theorem flagsField_flagsByte : ∀ (g : BitVec 5) (s r e : Bool),
    flagsField (flagsByte g s r e) = Machine.flagBits s r e := by decide

theorem ignored_flagsByte : ∀ (g : BitVec 5) (s r e : Bool), (flagsByte g s r e).extractLsb' 3 5 = g := by decide

theorem bits_flagsByte : ∀ (g : BitVec 5) (s r e : Bool),
    (flagsByte g s r e).getLsbD 0 = e ∧ (flagsByte g s r e).getLsbD 1 = r ∧ (flagsByte g s r e).getLsbD 2 = s := by
  decide

end Sys2Proof
end

