-- ==== Sys2Proof/Laws/Memory.lean ====
section
/-! SUPPORT. The sparse memories: read after write, and the canonical form that every operation keeps. -/

namespace Sys2Proof.Machine

variable {n : Nat}

theorem cellRead_consCell_ne {a b : Nat} (x : BitVec n) (m : List (Nat × BitVec n)) (h : b ≠ a) :
    cellRead (consCell a x m) b = cellRead m b := by
  unfold consCell; split
  · rfl
  · simp [cellRead, h]

/-- A write leaves every other cell alone. -/
theorem cellRead_cellWrite_ne (m : List (Nat × BitVec n)) {a b : Nat} (x : BitVec n) (h : b ≠ a) :
    cellRead (cellWrite m a x) b = cellRead m b := by
  induction m with
  | nil => exact cellRead_consCell_ne x [] h
  | cons c rest ih =>
    obtain ⟨k, y⟩ := c
    simp only [cellWrite]
    split
    · exact cellRead_consCell_ne x _ h
    · split
      · rename_i hk
        rw [cellRead_consCell_ne x rest h, cellRead, if_neg (by omega)]
      · simp only [cellRead, ih]

theorem cellsFrom_cons {bound lo k : Nat} {y : BitVec n} {m : List (Nat × BitVec n)} :
    cellsFrom bound lo ((k, y) :: m) = true ↔
      lo ≤ k ∧ k < bound ∧ y ≠ blank n ∧ cellsFrom bound (k + 1) m = true := by
  simp [cellsFrom, and_assoc]

theorem cellsFrom_mono {bound lo lo' : Nat} {m : List (Nat × BitVec n)} (h : lo ≤ lo')
    (hm : cellsFrom bound lo' m = true) : cellsFrom bound lo m = true := by
  cases m with
  | nil => rfl
  | cons c m =>
    obtain ⟨k, y⟩ := c
    rw [cellsFrom_cons] at hm ⊢
    exact ⟨h.trans hm.1, hm.2⟩

/-- Below the lowest address of a canonical memory everything is blank. -/
theorem cellRead_below {bound lo a : Nat} {m : List (Nat × BitVec n)} (hm : cellsFrom bound lo m = true)
    (h : a < lo) : cellRead m a = blank n := by
  induction m generalizing lo with
  | nil => rfl
  | cons c m ih =>
    obtain ⟨k, y⟩ := c
    rw [cellsFrom_cons] at hm
    rw [cellRead, if_neg (by omega)]
    exact ih hm.2.2.2 (by omega)

theorem cellRead_consCell_self {bound a lo : Nat} (x : BitVec n) {m : List (Nat × BitVec n)}
    (hm : cellsFrom bound lo m = true) (h : a < lo) : cellRead (consCell a x m) a = x := by
  unfold consCell; split
  · rename_i hx; rw [hx]; exact cellRead_below hm h
  · simp [cellRead]

/-- In a canonical memory a write is read back. -/
theorem cellRead_cellWrite_self {bound lo : Nat} {m : List (Nat × BitVec n)} (hm : cellsFrom bound lo m = true)
    (a : Nat) (x : BitVec n) : cellRead (cellWrite m a x) a = x := by
  induction m generalizing lo with
  | nil => exact cellRead_consCell_self (bound := bound) (lo := a + 1) x rfl (by omega)
  | cons c m ih =>
    obtain ⟨k, y⟩ := c
    have hm' := cellsFrom_cons.1 hm
    simp only [cellWrite]
    split
    · rename_i hk
      exact cellRead_consCell_self (lo := k) x (cellsFrom_cons.2 ⟨le_refl k, hm'.2⟩) hk
    · split
      · exact cellRead_consCell_self x hm'.2.2.2 (by omega)
      · rw [cellRead, if_neg (by assumption)]; exact ih hm'.2.2.2

/-- What any cell reads after a write to a canonical memory. -/
theorem cellRead_cellWrite {bound : Nat} {m : List (Nat × BitVec n)} (hm : cellsWf bound m = true)
    (a b : Nat) (x : BitVec n) : cellRead (cellWrite m a x) b = if b = a then x else cellRead m b := by
  split
  · subst b; exact cellRead_cellWrite_self hm a x
  · exact cellRead_cellWrite_ne m x (by assumption)

theorem cellsFrom_consCell {bound lo a : Nat} {x : BitVec n} {m : List (Nat × BitVec n)} (hlo : lo ≤ a)
    (hb : a < bound) (hm : cellsFrom bound (a + 1) m = true) : cellsFrom bound lo (consCell a x m) = true := by
  unfold consCell; split
  · exact cellsFrom_mono (by omega) hm
  · rename_i hx; exact cellsFrom_cons.2 ⟨hlo, hb, hx, hm⟩

theorem cellsFrom_cellWrite {bound lo a : Nat} {m : List (Nat × BitVec n)} (x : BitVec n) (hlo : lo ≤ a)
    (hb : a < bound) (hm : cellsFrom bound lo m = true) : cellsFrom bound lo (cellWrite m a x) = true := by
  induction m generalizing lo with
  | nil => exact cellsFrom_consCell hlo hb rfl
  | cons c m ih =>
    obtain ⟨k, y⟩ := c
    have hm' := cellsFrom_cons.1 hm
    simp only [cellWrite]
    split
    · exact cellsFrom_consCell hlo hb (cellsFrom_cons.2 ⟨by omega, hm'.2⟩)
    · split
      · rename_i hk; subst hk; exact cellsFrom_consCell hlo hb hm'.2.2.2
      · exact cellsFrom_cons.2 ⟨hm'.1, hm'.2.1, hm'.2.2.1, ih (by omega) hm'.2.2.2⟩

/-- A write inside the memory keeps the canonical form. -/
theorem cellsWf_cellWrite {bound a : Nat} {m : List (Nat × BitVec n)} (x : BitVec n) (hb : a < bound)
    (hm : cellsWf bound m = true) : cellsWf bound (cellWrite m a x) = true :=
  cellsFrom_cellWrite x (Nat.zero_le a) hb hm

/-! ### The sample memory -/

theorem wf_memSetByte {m : List Host.Cell} (a : Nat) (b : Byte) (h : Memory.wf m = true) :
    Memory.wf (memSetByte m a b) = true :=
  cellsWf_cellWrite b (Nat.mod_lt a (by decide)) h

theorem wf_memSetHalf {m : List Host.Cell} (a : Nat) (x : U16) (h : Memory.wf m = true) :
    Memory.wf (memSetHalf m a x) = true :=
  wf_memSetByte _ _ (wf_memSetByte _ _ h)

/-- What any byte reads after a byte store (R61, R248). -/
theorem memByte_memSetByte {m : List Host.Cell} (h : Memory.wf m = true) (a b : Nat) (x : Byte) :
    memByte (memSetByte m a x) b = if b % RAM_BYTES = a % RAM_BYTES then x else memByte m b :=
  cellRead_cellWrite h (a % RAM_BYTES) (b % RAM_BYTES) x

@[simp] theorem memByte_mod (m : List Host.Cell) (a : Nat) : memByte m (a % RAM_BYTES) = memByte m a := by
  simp [memByte]

/-! ### The reverb buffer -/

theorem revAddr_lt {r : Reverb} (off : Int) (h : 0 < r.len) : revAddr r off < r.len := by
  unfold revAddr
  have h1 := Int.emod_lt_of_pos ((r.cur : Int) + off) (b := (r.len : Int)) (by omega)
  have h2 := Int.emod_nonneg ((r.cur : Int) + off) (b := (r.len : Int)) (by omega)
  omega

theorem bufWf_revWriteBuf {p : Config.Params} {r : Reverb} (off : Int) (x : I16) (h0 : 0 < r.len)
    (hl : r.len ≤ p.revbufMax) (h : r.bufWf p = true) : (revWriteBuf r off x).bufWf p = true :=
  cellsWf_cellWrite x (lt_of_lt_of_le (revAddr_lt off h0) hl) h

end Sys2Proof.Machine
end

