-- ==== Sys2Proof/Laws/PerInstr.lean ====
section
/-! SUPPORT. Families of statements about every instruction as syntax, one lemma per constructor (LAWS.json). -/

namespace Sys2Proof.Laws

/-- What spec/opcode_table.json fixes of an instruction's word: for a command the value of bits 63:56 (mask
`0xFF00000000000000`), for a header byte bits 6:4 (mask `0x70`), for a flags byte bit 0, and bit 1 if bit 0 is set
(masks `0x01`, `0x03`), for the two envelope words nothing (mask `0x0000`). -/
inductive RowMatch where
  | cmd (op : Byte)
  | hdr (filter : BitVec 3)
  | flags (loopEnd : Bool) (loopRepeat : Option Bool)
  | adsr1
  | adsr2
  deriving DecidableEq, Repr

/-- The `match` of an instruction's row. -/
def rowMatch : Instr → RowMatch
  | .nop => .cmd 0x00
  | .tick => .cmd 0x01
  | .keyOn _ => .cmd 0x10
  | .keyOff _ => .cmd 0x11
  | .allKeyOff => .cmd 0x12
  | .setStart _ _ => .cmd 0x20
  | .setPitch _ _ => .cmd 0x21
  | .setAdsr1 _ _ => .cmd 0x22
  | .setAdsr2 _ _ => .cmd 0x23
  | .setVolL _ _ => .cmd 0x24
  | .setVolR _ _ => .cmd 0x25
  | .setReverbEn _ _ => .cmd 0x26
  | .revWrite _ _ => .cmd 0x30
  | .revPreset _ => .cmd 0x31
  | .revClear => .cmd 0x32
  | .setWet _ => .cmd 0x38
  | .setMaster _ => .cmd 0x39
  | .memWr8 _ _ => .cmd 0x40
  | .memWr16 _ _ => .cmd 0x41
  | .memRd8 _ => .cmd 0x42
  | .memRd16 _ => .cmd 0x43
  | .adpcmHdrF0 _ _ _ => .hdr 0
  | .adpcmHdrF1 _ _ _ => .hdr 1
  | .adpcmHdrF2 _ _ _ => .hdr 2
  | .adpcmHdrF3 _ _ _ => .hdr 3
  | .adpcmHdrF4 _ _ _ => .hdr 4
  | .adpcmHdrF5 _ _ _ => .hdr 5
  | .adpcmHdrF6 _ _ _ => .hdr 6
  | .adpcmHdrF7 _ _ _ => .hdr 7
  | .adpcmFlagsContinue _ _ _ _ => .flags false none
  | .adpcmFlagsLoop _ _ _ => .flags true (some true)
  | .adpcmFlagsStop _ _ _ => .flags true (some false)
  | .adsr1Word _ _ _ _ _ _ => .adsr1
  | .adsr2Word _ _ _ _ _ _ _ _ => .adsr2

/-- An item has the format and the fixed bits of a row. -/
def inRow (r : RowMatch) (it : Item) : Prop :=
  match r, it with
  | .cmd op, .cmd w => cmdOp w = op
  | .hdr f, .hdr _ b => headerFilter b = f
  | .flags e none, .flags _ b => b.getLsbD 0 = e
  | .flags e (some r), .flags _ b => b.getLsbD 0 = e ∧ b.getLsbD 1 = r
  | .adsr1, .adsr1 _ _ => True
  | .adsr2, .adsr2 _ _ => True
  | _, _ => False

end Sys2Proof.Laws

/-- The encoder writes every instruction in the format of its own row of the opcode table, with the row's fixed bits. -/
def Sys2Proof.Laws.EncodesInRow.Statement (i : Sys2Proof.Instr) : Prop :=
  Sys2Proof.Laws.inRow (Sys2Proof.Laws.rowMatch i) (Sys2Proof.encode i)

namespace Sys2Proof.Laws.EncodesInRow

theorem nop : Statement .nop := cmdOp_cmdWord _ _ _ _

theorem tick : Statement .tick := cmdOp_cmdWord _ _ _ _

theorem keyOn (idx : Byte) : Statement (.keyOn idx) := cmdOp_cmdWord _ _ _ _

theorem keyOff (idx : Byte) : Statement (.keyOff idx) := cmdOp_cmdWord _ _ _ _

theorem allKeyOff : Statement .allKeyOff := cmdOp_cmdWord _ _ _ _

theorem setStart (idx : Byte) (data : U16) : Statement (.setStart idx data) := cmdOp_cmdWord _ _ _ _

theorem setPitch (idx : Byte) (data : U16) : Statement (.setPitch idx data) := cmdOp_cmdWord _ _ _ _

theorem setAdsr1 (idx : Byte) (data : U16) : Statement (.setAdsr1 idx data) := cmdOp_cmdWord _ _ _ _

theorem setAdsr2 (idx : Byte) (data : U16) : Statement (.setAdsr2 idx data) := cmdOp_cmdWord _ _ _ _

theorem setVolL (idx : Byte) (data : U16) : Statement (.setVolL idx data) := cmdOp_cmdWord _ _ _ _

theorem setVolR (idx : Byte) (data : U16) : Statement (.setVolR idx data) := cmdOp_cmdWord _ _ _ _

theorem setReverbEn (idx : Byte) (data : U16) : Statement (.setReverbEn idx data) := cmdOp_cmdWord _ _ _ _

theorem revWrite (idx : Byte) (data : U16) : Statement (.revWrite idx data) := cmdOp_cmdWord _ _ _ _

theorem revPreset (idx : Byte) : Statement (.revPreset idx) := cmdOp_cmdWord _ _ _ _

theorem revClear : Statement .revClear := cmdOp_cmdWord _ _ _ _

theorem setWet (data : U16) : Statement (.setWet data) := cmdOp_cmdWord _ _ _ _

theorem setMaster (data : U16) : Statement (.setMaster data) := cmdOp_cmdWord _ _ _ _

theorem memWr8 (addr : BitVec 32) (data : U16) : Statement (.memWr8 addr data) := cmdOp_cmdWord _ _ _ _

theorem memWr16 (addr : BitVec 32) (data : U16) : Statement (.memWr16 addr data) := cmdOp_cmdWord _ _ _ _

theorem memRd8 (addr : BitVec 32) : Statement (.memRd8 addr) := cmdOp_cmdWord _ _ _ _

theorem memRd16 (addr : BitVec 32) : Statement (.memRd16 addr) := cmdOp_cmdWord _ _ _ _

theorem adpcmHdrF0 (lane : Fin 24) (bit7 : Bool) (shift : BitVec 4) :
    Statement (.adpcmHdrF0 lane bit7 shift) := headerFilter_headerByte _ _ _

theorem adpcmHdrF1 (lane : Fin 24) (bit7 : Bool) (shift : BitVec 4) :
    Statement (.adpcmHdrF1 lane bit7 shift) := headerFilter_headerByte _ _ _

theorem adpcmHdrF2 (lane : Fin 24) (bit7 : Bool) (shift : BitVec 4) :
    Statement (.adpcmHdrF2 lane bit7 shift) := headerFilter_headerByte _ _ _

theorem adpcmHdrF3 (lane : Fin 24) (bit7 : Bool) (shift : BitVec 4) :
    Statement (.adpcmHdrF3 lane bit7 shift) := headerFilter_headerByte _ _ _

theorem adpcmHdrF4 (lane : Fin 24) (bit7 : Bool) (shift : BitVec 4) :
    Statement (.adpcmHdrF4 lane bit7 shift) := headerFilter_headerByte _ _ _

theorem adpcmHdrF5 (lane : Fin 24) (bit7 : Bool) (shift : BitVec 4) :
    Statement (.adpcmHdrF5 lane bit7 shift) := headerFilter_headerByte _ _ _

theorem adpcmHdrF6 (lane : Fin 24) (bit7 : Bool) (shift : BitVec 4) :
    Statement (.adpcmHdrF6 lane bit7 shift) := headerFilter_headerByte _ _ _

theorem adpcmHdrF7 (lane : Fin 24) (bit7 : Bool) (shift : BitVec 4) :
    Statement (.adpcmHdrF7 lane bit7 shift) := headerFilter_headerByte _ _ _

theorem adpcmFlagsContinue (lane : Fin 24) (ign : BitVec 5) (st rep : Bool) :
    Statement (.adpcmFlagsContinue lane ign st rep) := (bits_flagsByte _ _ _ _).1

theorem adpcmFlagsLoop (lane : Fin 24) (ign : BitVec 5) (st : Bool) : Statement (.adpcmFlagsLoop lane ign st) :=
  ⟨(bits_flagsByte _ _ _ _).1, (bits_flagsByte _ _ _ _).2.1⟩

theorem adpcmFlagsStop (lane : Fin 24) (ign : BitVec 5) (st : Bool) : Statement (.adpcmFlagsStop lane ign st) :=
  ⟨(bits_flagsByte _ _ _ _).1, (bits_flagsByte _ _ _ _).2.1⟩

theorem adsr1Word (lane : Fin 24) (ae : Bool) (ash : BitVec 5) (ast : BitVec 2) (dsh sl : BitVec 4) :
    Statement (.adsr1Word lane ae ash ast dsh sl) := trivial

theorem adsr2Word (lane : Fin 24) (se sd un : Bool) (ssh : BitVec 5) (sst : BitVec 2) (re : Bool) (rsh : BitVec 5) :
    Statement (.adsr2Word lane se sd un ssh sst re rsh) := trivial

end Sys2Proof.Laws.EncodesInRow
end

