-- ==== Sys2Proof/Laws/State.lean ====
section
/-! SUPPORT. The small lemmas of the named operations: one per field per update, so that no proof unfolds a record
update, and for each shared operation one that says what it can do. -/

namespace Sys2Proof.Machine

/-! ### `done` -/

@[simp] theorem done_eq_next (s t : State) (r : Result) :
    done s r = Host.Outcome.next t ↔ { s with result := r } = t := by simp [done]

/-! ### `State.popped` -/

@[simp] theorem popped_voices (s : State) : s.popped.voices = s.voices := rfl
@[simp] theorem popped_mem (s : State) : s.popped.mem = s.mem := rfl
@[simp] theorem popped_wetQ15 (s : State) : s.popped.wetQ15 = s.wetQ15 := rfl
@[simp] theorem popped_masterQ14 (s : State) : s.popped.masterQ14 = s.masterQ14 := rfl
@[simp] theorem popped_latches (s : State) : s.popped.latches = s.latches := rfl
@[simp] theorem popped_rev (s : State) : s.popped.rev = s.rev := rfl
@[simp] theorem popped_port (s : State) : s.popped.port = s.port.tail := rfl
@[simp] theorem popped_result (s : State) : s.popped.result = s.result := rfl

/-! ### `setVoice` and `updVoice` -/

@[simp] theorem setVoice_mem (s : State) (i : Fin 24) (f : Voice → Voice) : (setVoice s i f).mem = s.mem := rfl
@[simp] theorem setVoice_wetQ15 (s : State) (i : Fin 24) (f : Voice → Voice) : (setVoice s i f).wetQ15 = s.wetQ15 := rfl
@[simp] theorem setVoice_masterQ14 (s : State) (i : Fin 24) (f : Voice → Voice) : (setVoice s i f).masterQ14 = s.masterQ14 := rfl
@[simp] theorem setVoice_latches (s : State) (i : Fin 24) (f : Voice → Voice) : (setVoice s i f).latches = s.latches := rfl
@[simp] theorem setVoice_rev (s : State) (i : Fin 24) (f : Voice → Voice) : (setVoice s i f).rev = s.rev := rfl
@[simp] theorem setVoice_port (s : State) (i : Fin 24) (f : Voice → Voice) : (setVoice s i f).port = s.port := rfl
@[simp] theorem setVoice_result (s : State) (i : Fin 24) (f : Voice → Voice) : (setVoice s i f).result = s.result := rfl

/-- Everything `setVoice` does: the one voice is updated, every other voice is as it was. -/
theorem setVoice_voice (s : State) (i : Fin 24) (f : Voice → Voice) (j : Fin 24) :
    (setVoice s i f).voices[j] = if i = j then f s.voices[j] else s.voices[j] := by
  simp only [setVoice, Fin.getElem_fin, Vector.getElem_set, Fin.ext_iff]
  split
  · rename_i hj; simp [hj]
  · rfl

@[simp] theorem updVoice_mem (s : State) (i : Byte) (f : Voice → Voice) : (updVoice s i f).mem = s.mem := by
  unfold updVoice; split <;> rfl
@[simp] theorem updVoice_wetQ15 (s : State) (i : Byte) (f : Voice → Voice) : (updVoice s i f).wetQ15 = s.wetQ15 := by
  unfold updVoice; split <;> rfl
@[simp] theorem updVoice_masterQ14 (s : State) (i : Byte) (f : Voice → Voice) :
    (updVoice s i f).masterQ14 = s.masterQ14 := by
  unfold updVoice; split <;> rfl
@[simp] theorem updVoice_latches (s : State) (i : Byte) (f : Voice → Voice) :
    (updVoice s i f).latches = s.latches := by
  unfold updVoice; split <;> rfl
@[simp] theorem updVoice_rev (s : State) (i : Byte) (f : Voice → Voice) : (updVoice s i f).rev = s.rev := by
  unfold updVoice; split <;> rfl
@[simp] theorem updVoice_port (s : State) (i : Byte) (f : Voice → Voice) : (updVoice s i f).port = s.port := by
  unfold updVoice; split <;> rfl
@[simp] theorem updVoice_result (s : State) (i : Byte) (f : Voice → Voice) : (updVoice s i f).result = s.result := by
  unfold updVoice; split <;> rfl

/-- Everything `updVoice` does: the voice the index names is updated, every other voice is as it was (R96). -/
theorem updVoice_voice (s : State) (idx : Byte) (f : Voice → Voice) (j : Fin 24) :
    (updVoice s idx f).voices[j] = if idx.toNat = j.val then f s.voices[j] else s.voices[j] := by
  unfold updVoice
  split
  · simp only [setVoice_voice, Fin.ext_iff]
  · rename_i h
    rw [if_neg]; have := j.isLt; simp only [NVOICES] at h; omega

/-- An index that names no voice is ignored (R96). -/
theorem updVoice_ignored {s : State} {idx : Byte} (f : Voice → Voice) (h : 24 ≤ idx.toNat) : updVoice s idx f = s := by
  unfold updVoice; rw [dif_neg (by simp only [NVOICES]; omega)]

/-! ### `mapVoices` -/

@[simp] theorem mapVoices_get (f : Voice → Voice) (vs : Vector Voice 24) (j : Fin 24) :
    (mapVoices f vs)[j] = f vs[j] := by
  simp [mapVoices]

/-! ### The reverb unit's updates -/

@[simp] theorem setRevLen_len (r : Reverb) (n : Nat) : (setRevLen r n).len = n := rfl
@[simp] theorem setRevLen_reg (r : Reverb) (n : Nat) : (setRevLen r n).reg = r.reg := rfl
@[simp] theorem setRevLen_buf (r : Reverb) (n : Nat) : (setRevLen r n).buf = r.buf := rfl
@[simp] theorem setRevLen_phase (r : Reverb) (n : Nat) : (setRevLen r n).phase = r.phase := rfl
@[simp] theorem setRevLen_dsL (r : Reverb) (n : Nat) : (setRevLen r n).dsL = r.dsL := rfl
@[simp] theorem setRevLen_dsR (r : Reverb) (n : Nat) : (setRevLen r n).dsR = r.dsR := rfl
@[simp] theorem setRevLen_usL (r : Reverb) (n : Nat) : (setRevLen r n).usL = r.usL := rfl
@[simp] theorem setRevLen_usR (r : Reverb) (n : Nat) : (setRevLen r n).usR = r.usR := rfl
theorem setRevLen_cur_lt (r : Reverb) {n : Nat} (h : 0 < n) : (setRevLen r n).cur < n := by
  simp only [setRevLen]; rw [if_neg (by omega)]; exact Nat.mod_lt _ h
@[simp] theorem setRevLen_cur_zero (r : Reverb) : (setRevLen r 0).cur = 0 := rfl

@[simp] theorem revWriteBuf_len (r : Reverb) (o : Int) (x : I16) : (revWriteBuf r o x).len = r.len := rfl
@[simp] theorem revWriteBuf_reg (r : Reverb) (o : Int) (x : I16) : (revWriteBuf r o x).reg = r.reg := rfl
@[simp] theorem revWriteBuf_cur (r : Reverb) (o : Int) (x : I16) : (revWriteBuf r o x).cur = r.cur := rfl
@[simp] theorem revWriteBuf_phase (r : Reverb) (o : Int) (x : I16) : (revWriteBuf r o x).phase = r.phase := rfl
@[simp] theorem revWriteBuf_dsL (r : Reverb) (o : Int) (x : I16) : (revWriteBuf r o x).dsL = r.dsL := rfl
@[simp] theorem revWriteBuf_dsR (r : Reverb) (o : Int) (x : I16) : (revWriteBuf r o x).dsR = r.dsR := rfl
@[simp] theorem revWriteBuf_usL (r : Reverb) (o : Int) (x : I16) : (revWriteBuf r o x).usL = r.usL := rfl
@[simp] theorem revWriteBuf_usR (r : Reverb) (o : Int) (x : I16) : (revWriteBuf r o x).usR = r.usR := rfl

@[simp] theorem pushInput_len (a b : I16) (r : Reverb) : (pushInput a b r).len = r.len := rfl
@[simp] theorem pushInput_reg (a b : I16) (r : Reverb) : (pushInput a b r).reg = r.reg := rfl
@[simp] theorem pushInput_buf (a b : I16) (r : Reverb) : (pushInput a b r).buf = r.buf := rfl
@[simp] theorem pushInput_cur (a b : I16) (r : Reverb) : (pushInput a b r).cur = r.cur := rfl
@[simp] theorem pushInput_phase (a b : I16) (r : Reverb) : (pushInput a b r).phase = r.phase := rfl
@[simp] theorem pushInput_dsL (a b : I16) (r : Reverb) : (pushInput a b r).dsL = shiftIn r.dsL a := rfl
@[simp] theorem pushInput_dsR (a b : I16) (r : Reverb) : (pushInput a b r).dsR = shiftIn r.dsR b := rfl
@[simp] theorem pushInput_usL (a b : I16) (r : Reverb) : (pushInput a b r).usL = r.usL := rfl
@[simp] theorem pushInput_usR (a b : I16) (r : Reverb) : (pushInput a b r).usR = r.usR := rfl

/-! ### `voiceOff` -/

@[simp] theorem voiceOff_active (v : Voice) : (voiceOff v).active = false := rfl
@[simp] theorem voiceOff_phase (v : Voice) : (voiceOff v).phase = .off := rfl
@[simp] theorem voiceOff_level (v : Voice) : (voiceOff v).level = 0 := rfl
@[simp] theorem voiceOff_envCnt (v : Voice) : (voiceOff v).envCnt = 0 := rfl
@[simp] theorem voiceOff_curAddr (v : Voice) : (voiceOff v).curAddr = v.curAddr := rfl
@[simp] theorem voiceOff_loopAddr (v : Voice) : (voiceOff v).loopAddr = v.loopAddr := rfl
@[simp] theorem voiceOff_pcount (v : Voice) : (voiceOff v).pcount = v.pcount := rfl
@[simp] theorem voiceOff_sidx (v : Voice) : (voiceOff v).sidx = v.sidx := rfl
@[simp] theorem voiceOff_pitch (v : Voice) : (voiceOff v).pitch = v.pitch := rfl
@[simp] theorem voiceOff_hostRegs (v : Voice) : (voiceOff v).hostRegs = v.hostRegs := rfl

end Sys2Proof.Machine
end

