-- ==== Sys2Proof/Laws/Reverb.lean ====
section
/-! SUPPORT. The reverb unit and the tick of the whole block: which fields each operation leaves alone. -/

namespace Sys2Proof.Machine

/-- The fields of the reverb unit that the core step does not write (R206). -/
structure SameButCore (r r' : Reverb) : Prop where
  len : r'.len = r.len
  reg : r'.reg = r.reg
  phase : r'.phase = r.phase
  dsL : r'.dsL = r.dsL
  dsR : r'.dsR = r.dsR
  usL : r'.usL = r.usL
  usR : r'.usR = r.usR

theorem SameButCore.refl (r : Reverb) : SameButCore r r := ⟨rfl, rfl, rfl, rfl, rfl, rfl, rfl⟩

theorem SameButCore.trans {a b c : Reverb} (h : SameButCore a b) (k : SameButCore b c) : SameButCore a c :=
  ⟨k.len.trans h.len, k.reg.trans h.reg, k.phase.trans h.phase, k.dsL.trans h.dsL, k.dsR.trans h.dsR,
    k.usL.trans h.usL, k.usR.trans h.usR⟩

theorem sameButCore_revWriteBuf (r : Reverb) (o : Int) (x : I16) : SameButCore r (revWriteBuf r o x) :=
  ⟨rfl, rfl, rfl, rfl, rfl, rfl, rfl⟩

theorem sameButCore_reflect (m d : RevReg) (x : Int) (r : Reverb) : SameButCore r (reflect m d x r) :=
  sameButCore_revWriteBuf r _ _

theorem sameButCore_reflections (dl dr : I16) (r : Reverb) : SameButCore r (reflections dl dr r) :=
  (sameButCore_reflect _ _ _ r).trans <| (sameButCore_reflect _ _ _ _).trans <|
    (sameButCore_reflect _ _ _ _).trans (sameButCore_reflect _ _ _ _)

theorem sameButCore_allPass (m d g : RevReg) (c : Int) (r : Reverb) : SameButCore r (allPass m d g c r).rev :=
  sameButCore_revWriteBuf r _ _

theorem sameButCore_diffuse (m1 m2 : RevReg) (c : Int) (r : Reverb) : SameButCore r (diffuse m1 m2 c r).rev :=
  (sameButCore_allPass _ _ _ c r).trans (sameButCore_allPass _ _ _ _ _)

theorem sameButCore_stepPosition (r : Reverb) : SameButCore r (stepPosition r) :=
  ⟨rfl, rfl, rfl, rfl, rfl, rfl, rfl⟩

/-- The core step writes the buffer and the position and nothing else (R206). -/
theorem sameButCore_coreStep (dl dr : I16) (r : Reverb) : SameButCore r (coreStep dl dr r).rev := by
  unfold coreStep; split
  · exact SameButCore.refl r
  · exact (sameButCore_reflections dl dr r).trans <| (sameButCore_diffuse _ _ _ _).trans <|
      (sameButCore_diffuse _ _ _ _).trans (sameButCore_stepPosition _)

/-- With no region the core does nothing (R206). -/
theorem coreStep_disabled (dl dr : I16) {r : Reverb} (h : r.len = 0) :
    coreStep dl dr r = { rev := r, left := 0, right := 0 } := by
  unfold coreStep; rw [if_pos h]

@[simp] theorem reverbTick_len (p : Config.Params) (a b : I16) (r : Reverb) : (reverbTick p a b r).rev.len = r.len := by
  unfold reverbTick; dsimp only; split
  · exact (sameButCore_coreStep _ _ _).len
  · rfl

@[simp] theorem reverbTick_reg (p : Config.Params) (a b : I16) (r : Reverb) : (reverbTick p a b r).rev.reg = r.reg := by
  unfold reverbTick; dsimp only; split
  · exact (sameButCore_coreStep _ _ _).reg
  · rfl

/-- The phase is inverted by every tick (R47). -/
@[simp] theorem reverbTick_phase (p : Config.Params) (a b : I16) (r : Reverb) :
    (reverbTick p a b r).rev.phase = !r.phase := by
  unfold reverbTick; dsimp only; split
  · rename_i h; simp only [pushInput_phase] at h; simp [h]
  · rename_i h; simp only [pushInput_phase, Bool.not_eq_true] at h; simp [h]

/-- For a half-band table up-sampling is the two cases of R201. -/
theorem upSample_halfBand {p : Config.Params} (h : halfBand p = true) (core : Bool) (u : Vector I16 20) :
    upSample p core u = if core then upFull p u else u[10] := by
  unfold upSample; rw [if_pos h]

/-- For any other table it is the general form of R204. -/
theorem upSample_general {p : Config.Params} (h : halfBand p = false) (core : Bool) (u : Vector I16 20) :
    upSample p core u = upGeneral p core u := by
  unfold upSample; rw [if_neg (by simp [h])]

/-- The default table is half-band (R203). -/
theorem halfBand_params : halfBand params = true := by decide +kernel

/-! ### `mixTick` -/

@[simp] theorem mixTick_mem (p : Config.Params) (s : State) : (mixTick p s).mem = s.mem := rfl
@[simp] theorem mixTick_wetQ15 (p : Config.Params) (s : State) : (mixTick p s).wetQ15 = s.wetQ15 := rfl
@[simp] theorem mixTick_masterQ14 (p : Config.Params) (s : State) : (mixTick p s).masterQ14 = s.masterQ14 := rfl
@[simp] theorem mixTick_port (p : Config.Params) (s : State) : (mixTick p s).port = s.port := rfl
@[simp] theorem mixTick_result (p : Config.Params) (s : State) : (mixTick p s).result = s.result := rfl

/-- Every voice does its own tick, over the memory all share (R71, R190). -/
@[simp] theorem mixTick_voice (p : Config.Params) (s : State) (j : Fin 24) :
    (mixTick p s).voices[j] = (voiceTick p s.mem s.voices[j]).voice :=
  mapVoices_get _ _ j

end Sys2Proof.Machine
end

