-- ==== Sys2Proof/Laws/Voice.lean ====
section
/-! SUPPORT. The operations of a voice's part of a tick: what each can answer, and that none writes a register of the
host (R21 to R27, R231). -/

namespace Sys2Proof.Machine

/-! ### The fetch -/

@[simp] theorem latchFlags_blkFlags (f : BitVec 3) (v : Voice) : (latchFlags f v).blkFlags = f := rfl
@[simp] theorem latchFlags_hasBlock (f : BitVec 3) (v : Voice) : (latchFlags f v).hasBlock = true := rfl
@[simp] theorem latchFlags_curAddr (f : BitVec 3) (v : Voice) : (latchFlags f v).curAddr = v.curAddr := rfl
@[simp] theorem latchFlags_active (f : BitVec 3) (v : Voice) : (latchFlags f v).active = v.active := rfl
@[simp] theorem latchFlags_phase (f : BitVec 3) (v : Voice) : (latchFlags f v).phase = v.phase := rfl
@[simp] theorem latchFlags_level (f : BitVec 3) (v : Voice) : (latchFlags f v).level = v.level := rfl
@[simp] theorem latchFlags_pcount (f : BitVec 3) (v : Voice) : (latchFlags f v).pcount = v.pcount := rfl
@[simp] theorem latchFlags_envCnt (f : BitVec 3) (v : Voice) : (latchFlags f v).envCnt = v.envCnt := rfl
@[simp] theorem latchFlags_hostRegs (f : BitVec 3) (v : Voice) : (latchFlags f v).hostRegs = v.hostRegs := rfl

section
variable (p : Config.Params) (f : BitVec 3) (h : BitVec 4) (d : Vector Byte 14) (v : Voice)

@[simp] theorem loadBlock_curAddr : (loadBlock p f h d v).curAddr = v.curAddr := rfl
@[simp] theorem loadBlock_loopAddr : (loadBlock p f h d v).loopAddr = v.loopAddr := rfl
@[simp] theorem loadBlock_blkFlags : (loadBlock p f h d v).blkFlags = v.blkFlags := rfl
@[simp] theorem loadBlock_hasBlock : (loadBlock p f h d v).hasBlock = v.hasBlock := rfl
@[simp] theorem loadBlock_active : (loadBlock p f h d v).active = v.active := rfl
@[simp] theorem loadBlock_phase : (loadBlock p f h d v).phase = v.phase := rfl
@[simp] theorem loadBlock_level : (loadBlock p f h d v).level = v.level := rfl
@[simp] theorem loadBlock_pcount : (loadBlock p f h d v).pcount = v.pcount := rfl
@[simp] theorem loadBlock_sidx : (loadBlock p f h d v).sidx = v.sidx := rfl
@[simp] theorem loadBlock_envCnt : (loadBlock p f h d v).envCnt = v.envCnt := rfl
@[simp] theorem loadBlock_hostRegs : (loadBlock p f h d v).hostRegs = v.hostRegs := rfl
end

section
variable (p : Config.Params) (m : List Host.Cell) (v : Voice)

@[simp] theorem fetch_active : (fetch p m v).active = v.active := rfl
@[simp] theorem fetch_phase : (fetch p m v).phase = v.phase := rfl
@[simp] theorem fetch_level : (fetch p m v).level = v.level := rfl
@[simp] theorem fetch_pcount : (fetch p m v).pcount = v.pcount := rfl
@[simp] theorem fetch_sidx : (fetch p m v).sidx = v.sidx := rfl
@[simp] theorem fetch_envCnt : (fetch p m v).envCnt = v.envCnt := rfl
@[simp] theorem fetch_curAddr : (fetch p m v).curAddr = v.curAddr := rfl
@[simp] theorem fetch_hasBlock : (fetch p m v).hasBlock = true := rfl
@[simp] theorem fetch_hostRegs : (fetch p m v).hostRegs = v.hostRegs := rfl

/-- After a fetch the loop address is the old one or the block's own (R133). -/
theorem fetch_loopAddr : (fetch p m v).loopAddr = v.loopAddr ∨ (fetch p m v).loopAddr = v.curAddr := by
  by_cases h : loopStart (flagsField (memByte m (v.curAddr.toNat + 1))) <;> simp [fetch, latchFlags, h]

@[simp] theorem fetchIfDue_active : (fetchIfDue p m v).active = v.active := by unfold fetchIfDue; split <;> rfl
@[simp] theorem fetchIfDue_phase : (fetchIfDue p m v).phase = v.phase := by unfold fetchIfDue; split <;> rfl
@[simp] theorem fetchIfDue_level : (fetchIfDue p m v).level = v.level := by unfold fetchIfDue; split <;> rfl
@[simp] theorem fetchIfDue_hostRegs : (fetchIfDue p m v).hostRegs = v.hostRegs := by unfold fetchIfDue; split <;> rfl
end

/-- The interpolated sample fits sixteen bits with every table (R135). -/
theorem interpolate_bounds (p : Config.Params) (v : Voice) :
    -32768 ≤ interpolate p v ∧ interpolate p v ≤ 32767 := ⟨le_sat16 _, sat16_le _⟩

/-! ### The end of a block and the advance -/

/-- Everything `BlockEnd` can do (R138): go on, jump to the loop address, or jump there and stop. -/
theorem blockEnd_cases (v : Voice) :
    (loopEnd v.blkFlags = false ∧ blockEnd v = { v with hasBlock := false, curAddr := v.curAddr + 16 }) ∨
    (loopEnd v.blkFlags = true ∧ loopRepeat v.blkFlags = true ∧
      blockEnd v = { v with hasBlock := false, curAddr := v.loopAddr }) ∨
    (loopEnd v.blkFlags = true ∧ loopRepeat v.blkFlags = false ∧
      blockEnd v = voiceOff { v with hasBlock := false, curAddr := v.loopAddr }) := by
  cases h : loopEnd v.blkFlags <;> cases h' : loopRepeat v.blkFlags <;> simp [blockEnd, stopsVoice, h, h']

@[simp] theorem blockEnd_hostRegs (v : Voice) : (blockEnd v).hostRegs = v.hostRegs := by
  obtain ⟨_, h⟩ | ⟨_, _, h⟩ | ⟨_, _, h⟩ := blockEnd_cases v <;> rw [h] <;> rfl

@[simp] theorem blockEnd_pcount (v : Voice) : (blockEnd v).pcount = v.pcount := by
  obtain ⟨_, h⟩ | ⟨_, _, h⟩ | ⟨_, _, h⟩ := blockEnd_cases v <;> simp only [h, voiceOff_pcount]

@[simp] theorem blockEnd_sidx (v : Voice) : (blockEnd v).sidx = v.sidx := by
  obtain ⟨_, h⟩ | ⟨_, _, h⟩ | ⟨_, _, h⟩ := blockEnd_cases v <;> simp only [h, voiceOff_sidx]

/-- The voice after the pitch counter and the sample cursor have moved, before a block end is looked at (R137). -/
def moved (v : Voice) : Voice :=
  { v with
    pcount := fraction (v.pcount + BitVec.ofNat 16 (pitchStep v.pitch))
    sidx := Fin.ofNat 28 (v.sidx.val + wholeSamples (v.pcount + BitVec.ofNat 16 (pitchStep v.pitch))) }

/-- Everything `Advance` can do (R137): move inside the block, or move out of it and end it. -/
theorem advance_cases (v : Voice) : advance v = moved v ∨ advance v = blockEnd (moved v) := by
  unfold advance; dsimp only; split
  · exact .inl rfl
  · exact .inr rfl

@[simp] theorem advance_hostRegs (v : Voice) : (advance v).hostRegs = v.hostRegs := by
  obtain h | h := advance_cases v
  · rw [h]; rfl
  · rw [h, blockEnd_hostRegs]; rfl

/-! ### The envelope -/

/-- The increment and the scaled step of a phase at the present level (R153, R154). -/
def envMove (q : PhaseParams) (v : Voice) : Int × Nat :=
  envAdjust (envBase q.rate q.decreasing q.rateMax).1 (envBase q.rate q.decreasing q.rateMax).2 q.rate q.decreasing
    q.exponential v.level.toInt

/-- The counter after the increment, before bit 15 is looked at (R155). -/
def envNext (q : PhaseParams) (v : Voice) : U16 := v.envCnt + BitVec.ofNat 16 (envMove q v).2

theorem envCount_eq (q : PhaseParams) (v : Voice) :
    envCount q v = if counterFull (envNext q v) = true then
      { v with envCnt := 0, level := envLevel q.decreasing v.level.toInt (envMove q v).1 }
    else { v with envCnt := envNext q v } := rfl

/-- Everything the counter and the level can do in one step (R155, R156): wait, or change the level and start again. -/
theorem envCount_cases (q : PhaseParams) (v : Voice) :
    (∃ c, counterFull c = false ∧ envCount q v = { v with envCnt := c }) ∨
    (∃ ts, envCount q v = { v with envCnt := 0, level := envLevel q.decreasing v.level.toInt ts }) := by
  rw [envCount_eq]
  cases h : counterFull (envNext q v)
  · exact .inl ⟨envNext q v, h, if_neg (by simp)⟩
  · exact .inr ⟨_, if_pos rfl⟩

/-- Everything a transition can do (R157): nothing, enter Decay, enter Sustain, or go Off. -/
theorem envTransition_cases (v : Voice) :
    envTransition v = v ∨
    (v.phase = .attack ∧ 0x7FFF ≤ v.level.toInt ∧ envTransition v = { v with phase := .decay, envCnt := 0 }) ∨
    (v.phase = .decay ∧ v.level.toInt ≤ sustainTarget v.adsr1 ∧
      envTransition v = { v with phase := .sustain, envCnt := 0 }) ∨
    (v.phase = .release ∧ v.level = 0 ∧ envTransition v = voiceOff v) := by
  unfold envTransition
  split
  · split
    · exact .inr (.inl ⟨by assumption, by assumption, rfl⟩)
    · exact .inl rfl
  · split
    · exact .inr (.inr (.inl ⟨by assumption, by assumption, rfl⟩))
    · exact .inl rfl
  · exact .inl rfl
  · split
    · exact .inr (.inr (.inr ⟨by assumption, by assumption, rfl⟩))
    · exact .inl rfl
  · exact .inl rfl

@[simp] theorem envCount_hostRegs (q : PhaseParams) (v : Voice) : (envCount q v).hostRegs = v.hostRegs := by
  obtain ⟨_, _, h⟩ | ⟨_, h⟩ := envCount_cases q v <;> rw [h] <;> rfl

@[simp] theorem envTransition_hostRegs (v : Voice) : (envTransition v).hostRegs = v.hostRegs := by
  obtain h | ⟨_, _, h⟩ | ⟨_, _, h⟩ | ⟨_, _, h⟩ := envTransition_cases v <;> rw [h] <;> rfl

@[simp] theorem envStep_hostRegs (v : Voice) : (envStep v).hostRegs = v.hostRegs := by
  unfold envStep; split <;> simp

/-- A level change of a decreasing phase is floored at 0 (R156). -/
theorem envLevel_decreasing {level ts : Int} (h1 : level + ts ≤ 32767) :
    (envLevel true level ts).toInt = max (level + ts) 0 := by
  unfold envLevel; exact toInt_ofInt16 (by simp) (by simp; omega)

/-- A level change of an increasing phase is clamped (R156). -/
theorem envLevel_increasing (level ts : Int) :
    (envLevel false level ts).toInt = clamp (level + ts) (-32768) 32767 := by
  unfold envLevel
  exact toInt_ofInt16 (by simpa using le_clamp (by omega)) (by simpa using clamp_le (by omega))

/-! ### The voice tick -/

@[simp] theorem moveOn_hostRegs (v : Voice) : (moveOn v).hostRegs = v.hostRegs := by
  unfold moveOn; dsimp only; split <;> simp

/-- No tick writes a register of the host (R231). -/
@[simp] theorem voiceTick_hostRegs (p : Config.Params) (m : List Host.Cell) (v : Voice) :
    (voiceTick p m v).voice.hostRegs = v.hostRegs := by
  unfold voiceTick; split <;> simp

end Sys2Proof.Machine
end

