-- ==== Sys2Proof/Tests/Slice0.lean ====
section
/-! SUPPORT. The model's own tests: ill-formed terms that the checks refuse, words written out from the spec's encodings,
single steps whose expected results are vectors of spec/95_test_vectors.md or worked by hand from a rule, and for every
statement with hypotheses a witness that meets them. -/

namespace Sys2Proof.Tests

open Sys2Proof.Machine

/-- The predicate holds of the next state. -/
def after (o : Out) (f : State → Bool) : Bool :=
  match o with
  | .next t => f t
  | _ => false

/-- The outcome is this next state. -/
def gives (o : Out) (t : State) : Bool := after o (· == t)

/-- The outcome is this refusal. -/
def refuses (o : Out) (r : Refusal) : Bool :=
  match o with
  | .refused r' => r' == r
  | _ => false

/-- The non-zero bytes of a list, from address `a` on. -/
def cells : Nat → List Byte → List Host.Cell
  | _, [] => []
  | a, b :: bs => if b = 0 then cells (a + 1) bs else (a, b) :: cells (a + 1) bs

/-- The reset state with voice 3 replaced. -/
def withVoice (v : Voice) : State := { State.reset with voices := State.reset.voices.set 3 v }

/-- An active voice in Attack, its block still to be fetched. -/
def playing : Voice := { Voice.reset with active := true, phase := .attack }

/-- A voice waiting to fetch block 0x20, with a predictor pair. -/
def waiting (p1 p2 : I16) : Voice := { playing with curAddr := 0x20, loopAddr := 0x20, prev1 := p1, prev2 := p2 }

/-- The state in which voice 3 waits to fetch the block of these bytes. -/
def blockAt (bytes : List Byte) (p1 p2 : I16) : State := { withVoice (waiting p1 p2) with mem := cells 0x20 bytes }

/-- Voice 3 at the end of the block at 0x40 (section 3.3 of the vectors). -/
def atEnd (loop : BitVec 19) : State :=
  withVoice { playing with curAddr := 0x40, loopAddr := loop, hasBlock := true, level := 500, envCnt := 9 }

/-! ### WellFormed: a command word with a reserved opcode is refused, and nothing else is -/

theorem test_wf_refuses : Item.wf (.cmd 0x0200000000000000) = false ∧ Item.wf (.cmd 0xFF00000000000000) = false ∧
    Item.wf (.cmd 0x4400000000000000) = false := by decide

theorem test_wf_accepts : Item.wf (.cmd 0x01FFFFFFFFFFFFFF) = true ∧ Item.wf (.cmd 0x4300000000000000) = true ∧
    Item.wf (.hdr 23 0xFF) = true ∧ Item.wf (.adsr2 0 0xFFFF) = true := by decide

/-! ### Decode: words written out from R92 and R94 (vectors X1 and the programs), R82, R84, R88 and R89 -/

theorem test_decode_time : decode (.cmd 0x0000000000000000) = .ok .nop ∧ decode (.cmd 0x0100000000000000) = .ok .tick ∧
    decode (.cmd 0x01FFFFFFFFFFFFFF) = .ok .tick := by decide

theorem test_decode_keying : decode (.cmd 0x1003000000000000) = .ok (.keyOn 3) ∧
    decode (.cmd 0x1117000000000000) = .ok (.keyOff 23) ∧ decode (.cmd 0x1200000000000000) = .ok .allKeyOff := by decide

theorem test_decode_voice_registers : decode (.cmd 0x2000000200000000) = .ok (.setStart 0 2) ∧
    decode (.cmd 0x2103100000000000) = .ok (.setPitch 3 0x1000) ∧
    decode (.cmd 0x22051C4A00000000) = .ok (.setAdsr1 5 0x1C4A) ∧
    decode (.cmd 0x23055FC600000000) = .ok (.setAdsr2 5 0x5FC6) ∧
    decode (.cmd 0x2400C00000000000) = .ok (.setVolL 0 0xC000) ∧
    decode (.cmd 0x2500E00000000000) = .ok (.setVolR 0 0xE000) ∧
    decode (.cmd 0x2601000100000000) = .ok (.setReverbEn 1 1) := by decide

theorem test_decode_reverb : decode (.cmd 0x30026D8000000000) = .ok (.revWrite 2 0x6D80) ∧
    decode (.cmd 0x3020001000000000) = .ok (.revWrite 32 0x10) ∧ decode (.cmd 0x3100000000000000) = .ok (.revPreset 0) ∧
    decode (.cmd 0x3200000000000000) = .ok .revClear ∧ decode (.cmd 0x3800200000000000) = .ok (.setWet 0x2000) ∧
    decode (.cmd 0x3900400000000000) = .ok (.setMaster 0x4000) := by decide

theorem test_decode_memory : decode (.cmd 0x4000003400080001) = .ok (.memWr8 0x80001 0x34) ∧
    decode (.cmd 0x4100020000000010) = .ok (.memWr16 0x10 0x200) ∧
    decode (.cmd 0x420000000007FFFF) = .ok (.memRd8 0x7FFFF) ∧
    decode (.cmd 0x43000000FFFFFFFF) = .ok (.memRd16 0xFFFFFFFF) := by decide

/-- Header bytes: bit 7, then the filter in bits 6:4, then the shift in bits 3:0. -/
theorem test_decode_headers : decode (.hdr 0 0b00001100) = .ok (.adpcmHdrF0 0 false 12) ∧
    decode (.hdr 0 0b00011000) = .ok (.adpcmHdrF1 0 false 8) ∧ decode (.hdr 0 0b00101010) = .ok (.adpcmHdrF2 0 false 10) ∧
    decode (.hdr 0 0b00110110) = .ok (.adpcmHdrF3 0 false 6) ∧ decode (.hdr 0 0b01000000) = .ok (.adpcmHdrF4 0 false 0) ∧
    decode (.hdr 23 0b11011101) = .ok (.adpcmHdrF5 23 true 13) ∧ decode (.hdr 0 0b01100001) = .ok (.adpcmHdrF6 0 false 1) ∧
    decode (.hdr 0 0b01111111) = .ok (.adpcmHdrF7 0 false 15) := by decide

/-- Flags bytes: bits 7:3, then loop-start, loop-repeat and loop-end in bits 2, 1 and 0. -/
theorem test_decode_flags : decode (.flags 1 0b00000000) = .ok (.adpcmFlagsContinue 1 0 false false) ∧
    decode (.flags 1 0b10001110) = .ok (.adpcmFlagsContinue 1 0b10001 true true) ∧
    decode (.flags 1 0b00000011) = .ok (.adpcmFlagsLoop 1 0 false) ∧
    decode (.flags 1 0b11111101) = .ok (.adpcmFlagsStop 1 0b11111 true) := by decide

/-- The registers of vector E2. -/
theorem test_decode_adsr : decode (.adsr1 2 0x8F1F) = .ok (.adsr1Word 2 true 3 3 1 15) ∧
    decode (.adsr2 2 0xDFFF) = .ok (.adsr2Word 2 true true false 31 3 true 31) ∧
    decode (.adsr1 2 0x1C4A) = .ok (.adsr1Word 2 false 7 0 4 10) ∧
    decode (.adsr2 2 0x5FC6) = .ok (.adsr2Word 2 false true false 31 3 false 6) := by decide

theorem test_decode_reserved : decode (.cmd 0x0200000000000000) = .error (.reservedOpcode 0x02) ∧
    decode (.cmd 0xFF00000000000000) = .error (.reservedOpcode 0xFF) := by decide

theorem test_encode_words : encode (.setPitch 3 0x1000) = .cmd 0x2103100000000000 ∧
    encode (.memWr8 0x80001 0x34) = .cmd 0x4000003400080001 ∧ encode .revClear = .cmd 0x3200000000000000 ∧
    encode (.adpcmHdrF5 0 true 13) = .hdr 0 0xDD ∧ encode (.adsr1Word 0 true 3 3 1 15) = .adsr1 0 0x8F1F := by decide

theorem test_table_words : decodeTableWord 64 0x2103100000000000 = some (.setPitch 3 0x1000) ∧
    decodeTableWord 64 0x0200000000000000 = none ∧ decodeTableWord 8 0x18 = some (.adpcmHdrF1 0 false 8) ∧
    decodeTableWord 16 0x8F1F = some (.adsr1Word 0 true 3 3 1 15) := by decide

/-! ### Single steps -/

theorem test_nop : gives (step (State.reset.withFetchWord 64 0)) State.reset = true := by decide

/-- R231: a TICK in the reset state returns zeros and changes only `rev_phase`. -/
theorem test_tick_at_reset : gives (step (State.reset.withFetchWord 64 0x0100000000000000))
    { State.reset with rev := { Reverb.reset with phase := true }, result := .tick Latches.reset } = true := by
  decide +kernel

/-- Program P1, tick 2. -/
theorem test_tick_p1_t2 :
    after (exec .tick { withVoice { playing with curAddr := 0x20, loopAddr := 0x20, sidx := 1, level := 14336,
                                                 pitch := 0x1000, adsr1 := 0x00FF, volL := 0x4000, volR := 0xE000 } with
        mem := cells 0x20 [0x00, 0x00, 0x21, 0x43, 0x65, 0x17, 0x32, 0x54, 0x76, 0x21, 0x43, 0x65, 0x17, 0x32, 0x54, 0x76] })
      (fun t => t.latches.dryL.toInt == 133 && t.latches.dryR.toInt == -67 && t.voices[3].level == 28672 &&
        t.voices[3].sidx == 2 && t.voices[3].dec[6] == 28672) = true := by decide +kernel

/-- Vector X4. -/
theorem test_key_on : after (exec (.keyOn 3) (withVoice { Voice.reset with startBlk := 0xFFFF }))
    (fun t => t.voices[3].curAddr == 0x7FFF0 && t.voices[3].loopAddr == 0x7FFF0 && t.voices[3].phase == .attack &&
      t.voices[3].active) = true := by decide

theorem test_key_on_out_of_range : gives (exec (.keyOn 24) State.reset) State.reset = true := by decide

theorem test_key_off : after (exec (.keyOff 3) (withVoice { playing with level := 8960, envCnt := 7 }))
    (fun t => t.voices[3].phase == .release && t.voices[3].level == 8960 && t.voices[3].envCnt == 0) = true := by decide

theorem test_key_off_idle : gives (exec (.keyOff 3) State.reset) State.reset = true := by decide

theorem test_all_key_off : after (exec .allKeyOff (withVoice { playing with phase := .sustain }))
    (fun t => t.voices[3].phase == .release && t.voices[4].phase == .off) = true := by decide

theorem test_set_start : after (step (State.reset.withFetchWord 64 0x2017FFFF00000000))
    (fun t => t.voices[23].startBlk == 0xFFFF && t.voices[22].startBlk == 0) = true := by decide

theorem test_set_pitch : after (step (State.reset.withFetchWord 64 0x2103FFFF00000000))
    (fun t => t.voices[3].pitch == 0xFFFF && t.voices[2].pitch == 0) = true := by decide

theorem test_set_adsr1 : after (step (State.reset.withFetchWord 64 0x220300FF00000000))
    (fun t => t.voices[3].adsr1 == 0x00FF && t.voices[3].adsr2 == 0) = true := by decide

theorem test_set_adsr2 : after (step (State.reset.withFetchWord 64 0x2303200000000000))
    (fun t => t.voices[3].adsr2 == 0x2000 && t.voices[3].adsr1 == 0) = true := by decide

theorem test_set_vol_l : after (step (State.reset.withFetchWord 64 0x2400C00000000000))
    (fun t => t.voices[0].volL.toInt == -0x4000 && t.voices[0].volR == 0) = true := by decide

theorem test_set_vol_r : after (step (State.reset.withFetchWord 64 0x2500E00000000000))
    (fun t => t.voices[0].volR.toInt == -0x2000 && t.voices[0].volL == 0) = true := by decide

/-- Vector X5. -/
theorem test_set_reverb_en : after (exec (.setReverbEn 0 0xFFFE) State.reset) (fun t => !t.voices[0].revEn) = true ∧
    after (exec (.setReverbEn 0 0x0001) State.reset) (fun t => t.voices[0].revEn) = true := by decide

theorem test_rev_write_register : after (step (State.reset.withFetchWord 64 0x30026D8000000000))
    (fun t => t.rev.reg[2] == 0x6D80 && t.rev.reg[3] == 0 && t.rev.len == 0) = true := by decide

/-- Vector X3. -/
theorem test_rev_write_length : after (exec (.revWrite 32 0xFFFF) State.reset) (fun t => t.rev.len == 262140) = true ∧
    gives (exec (.revWrite 33 0x1234) State.reset) State.reset = true := by decide

/-- A parameter set with one preset; the default list is open (notes/assumptions/4.md). -/
def onePreset : Config.Params := { params with reverbPresets := [{ reg := Vector.replicate 32 7, len := 300000 }] }

theorem test_rev_preset : after (execWith onePreset (.revPreset 0) State.reset)
      (fun t => t.rev.len == 262144 && t.rev.reg[31] == 7) = true ∧
    gives (execWith onePreset (.revPreset 1) State.reset) State.reset = true := by decide

theorem test_rev_clear : after (exec .revClear { State.reset with
      rev := { Reverb.reset with len := 8, cur := 5, phase := true, buf := [(1, 9)], usL := Vector.replicate 20 3 },
      wetQ15 := 4 })
    (fun t => t.rev == { Reverb.reset with len := 8 } && t.wetQ15 == 4) = true := by decide

theorem test_set_wet : gives (exec (.setWet 0xFFFF) State.reset) { State.reset with wetQ15 := 0xFFFF } = true := by decide

theorem test_set_master : gives (exec (.setMaster 0x4000) State.reset) { State.reset with masterQ14 := 0x4000 } = true := by decide

/-- Program P5: the address wraps and bits 15:8 of the operand are ignored. -/
theorem test_mem_wr8 : gives (exec (.memWr8 0x80001 0x1234) State.reset) { State.reset with mem := [(1, 0x34)] } = true ∧
    gives (exec (.memWr8 1 0x1200) { State.reset with mem := [(1, 0x34)] }) State.reset = true := by decide

/-- Program P5: the halfword at the last byte wraps to byte 0. -/
theorem test_mem_wr16 : gives (exec (.memWr16 0x7FFFF 0xBEEF) State.reset)
    { State.reset with mem := [(0, 0xBE), (0x7FFFF, 0xEF)] } = true := by decide

theorem test_mem_rd8 : gives (exec (.memRd8 0x80000) { State.reset with mem := [(0, 0xBE), (0x7FFFF, 0xEF)] })
    { State.reset with mem := [(0, 0xBE), (0x7FFFF, 0xEF)], result := .byte 0xBE } = true := by decide

theorem test_mem_rd16 : gives (exec (.memRd16 0xFFFFFFFF) { State.reset with mem := [(0, 0xBE), (0x7FFFF, 0xEF)] })
    { State.reset with mem := [(0, 0xBE), (0x7FFFF, 0xEF)], result := .half 0xBEEF } = true := by decide

/-! ### Header words: the vectors A1 to A9 -/

/-- The samples and the predictor pair that a header word leaves in voice 3. -/
def decodes (o : Out) (samples : List Int) (p1 p2 : Int) : Bool :=
  after o fun t => (t.voices[3].dec.toList.map BitVec.toInt) == samples && t.voices[3].prev1.toInt == p1 &&
    t.voices[3].prev2.toInt == p2

/-- Vector A1. -/
theorem test_hdr_f0 : decodes (exec (.adpcmHdrF0 3 false 12)
      (blockAt [0x0C, 0, 0x10, 0x32, 0x54, 0x76, 0x98, 0xBA, 0xDC, 0xFE, 0x10, 0x32, 0x54, 0x76, 0x98, 0xBA] 0 0))
    [0, 1, 2, 3, 4, 5, 6, 7, -8, -7, -6, -5, -4, -3, -2, -1, 0, 1, 2, 3, 4, 5, 6, 7, -8, -7, -6, -5] (-5) (-6) = true := by
  decide +kernel

/-- Vector A2. -/
theorem test_hdr_f1 : decodes (exec (.adpcmHdrF1 3 false 8) (blockAt (0x18 :: 0 :: List.replicate 14 0x11) 0 0))
    [16, 31, 45, 58, 70, 81, 91, 101, 110, 119, 127, 135, 142, 149, 155, 161, 166, 171, 176, 181, 185, 189, 193, 196, 199,
     202, 205, 208] 208 205 = true := by decide +kernel

/-- Vector A7. -/
theorem test_hdr_f1_rounding : decodes (exec (.adpcmHdrF1 3 false 0) (blockAt [0x10] (-1) 5))
    (List.replicate 28 (-1)) (-1) (-1) = true := by decide +kernel

/-- Vector A3. -/
theorem test_hdr_f2 : decodes (exec (.adpcmHdrF2 3 false 10) (blockAt (0x2A :: 0 :: List.replicate 14 0xE3) 100 (-50)))
    [231, 325, 407, 458, 503, 522, 540, 537, 537, 519, 507, 481, 464, 434, 414, 382, 361, 329, 309, 279, 261, 233, 217,
     191, 178, 155, 145, 126] 126 145 = true := by decide +kernel

/-- Vector A6. -/
theorem test_hdr_f3 : decodes (exec (.adpcmHdrF3 3 false 6)
      (blockAt [0x36, 0, 0x21, 0x43, 0x65, 0x67, 0x45, 0x23, 0x01, 0xEF, 0xCD, 0xAB, 0x89, 0xA9, 0xCB, 0xED] 0 0))
    [64, 226, 483, 800, 1129, 1424, 1657, 1697, 1494, 1084, 567, 64, -326, -555, -634, -623, -602, -643, -788, -1039,
     -1362, -1706, -1891, -1814, -1473, -954, -388, 96] 96 (-388) = true := by decide +kernel

/-- Vector A4. -/
theorem test_hdr_f4 : decodes (exec (.adpcmHdrF4 3 false 0) (blockAt (0x40 :: 0 :: List.replicate 14 0x77) 0 0))
    (28672 :: List.replicate 27 32767) 32767 32767 = true := by decide +kernel

/-- The samples of vector A5. -/
def samplesA5 : List Int :=
  [56, 42, 83, 54, 80, 37, 51, -2, 4, -56, -55, -117, -117, -179, -177, -235, -227, -277, -261, -303, -278, -310, -275,
   -299, -257, -274, -227, -241]

/-- Vector A5: shift 13 acts as 9 and filter 5 as 4; so does header 0xDD. -/
theorem test_hdr_f5 : decodes (exec (.adpcmHdrF5 3 false 13) (blockAt (0x5D :: 0xFF :: List.replicate 14 0x87) 0 0))
      samplesA5 (-241) (-227) = true ∧
    decodes (exec (.adpcmHdrF5 3 true 13) (blockAt (0xDD :: 0xFF :: List.replicate 14 0x87) 0 0))
      samplesA5 (-241) (-227) = true := by decide +kernel

/-- R83: filter 6 acts as 4; shift 9 as in vector A5. -/
theorem test_hdr_f6 : decodes (exec (.adpcmHdrF6 3 false 9) (blockAt (0x69 :: 0 :: List.replicate 14 0x87) 0 0))
    samplesA5 (-241) (-227) = true := by decide +kernel

/-- Vector A5: header 0x7F decodes as shift 9, filter 4. -/
theorem test_hdr_f7 : decodes (exec (.adpcmHdrF7 3 false 15) (blockAt (0x7F :: 0 :: List.replicate 14 0x87) 0 0))
    samplesA5 (-241) (-227) = true := by decide +kernel

/-- The fetch of program P5 (vector F2), whose block is the last of the memory. -/
theorem test_fetch_f2 :
    let v := fetch params [(0, 0xBE), (0x7FFFF, 0xEF)] { playing with curAddr := 0x7FFF0, loopAddr := 0x7FFF0 }
    v.dec[25] = 0 ∧ v.dec[26].toInt = -4096 ∧ v.dec[27].toInt = -8192 ∧ v.prev1.toInt = -8192 ∧ v.prev2.toInt = -4096 ∧
      v.blkFlags = 0 ∧ v.hasBlock = true := by decide +kernel

/-! ### Flags words: the vectors B1 to B8 -/

/-- Vectors B1 and B2. -/
theorem test_flags_continue : after (exec (.adpcmFlagsContinue 3 0 false true) (atEnd 0x20))
    (fun t => t.voices[3].curAddr == 0x50 && t.voices[3].active && !t.voices[3].hasBlock) = true := by decide

/-- Vector B8. -/
theorem test_flags_continue_wraps : after (exec (.adpcmFlagsContinue 3 0 false false)
      (withVoice { playing with curAddr := 0x7FFF0 }))
    (fun t => t.voices[3].curAddr == 0 && t.voices[3].active) = true := by decide

/-- Vectors B4 and B5. -/
theorem test_flags_loop : after (exec (.adpcmFlagsLoop 3 0 false) (atEnd 0x20))
      (fun t => t.voices[3].curAddr == 0x20 && t.voices[3].active && t.voices[3].level == 500) = true ∧
    after (exec (.adpcmFlagsLoop 3 0 true) (atEnd 0x20))
      (fun t => t.voices[3].curAddr == 0x40 && t.voices[3].loopAddr == 0x40 && t.voices[3].active) = true := by decide

/-- Vectors B6 and B7. -/
theorem test_flags_stop : after (exec (.adpcmFlagsStop 3 0 false) (atEnd 0x20))
      (fun t => t.voices[3].curAddr == 0x20 && !t.voices[3].active && t.voices[3].level == 0 && t.voices[3].envCnt == 0 &&
        t.voices[3].phase == .off) = true ∧
    after (exec (.adpcmFlagsStop 3 0 true) (atEnd 0x20)) (fun t => t.voices[3].curAddr == 0x40) = true := by decide

/-! ### Envelope words and the envelope (vectors E1 to E18) -/

theorem test_adsr1_word : after (exec (.adsr1Word 3 true 3 3 1 15) State.reset)
    (fun t => t.voices[3].adsr1 == 0x8F1F && t.voices[3].adsr2 == 0) = true := by decide

theorem test_adsr2_word : after (exec (.adsr2Word 3 false true false 31 3 false 6) State.reset)
    (fun t => t.voices[3].adsr2 == 0x5FC6 && t.voices[3].adsr1 == 0) = true := by decide

/-- Vector E1. -/
theorem test_env_base : envBase 0 false 127 = (14336, 0x8000) ∧ envBase 43 false 127 = (8, 0x8000) ∧
    envBase 44 false 127 = (7, 0x8000) ∧ envBase 48 false 127 = (7, 0x4000) ∧ envBase 107 false 127 = (4, 1) ∧
    envBase 108 false 127 = (7, 1) ∧ envBase 127 false 127 = (4, 0) ∧ envBase 124 true 124 = (-7, 0) ∧
    envBase 60 true 60 = (-7, 0x800) := by decide

/-- The bands of `EnvAdjust` (vectors E5, E6, E7 and E16). -/
theorem test_env_adjust : envAdjust 28 0x8000 36 false true 24588 = (7, 0x8000) ∧
    envAdjust 10 0x8000 42 false true 24578 = (5, 0x4000) ∧ envAdjust 5 0x8000 46 false true 24577 = (5, 0x2000) ∧
    envAdjust (-14336) 0x8000 0 true true 3 = (-2, 0x8000) := by decide

/-- Vectors E4, E14 and E18. -/
theorem test_env_step :
    (envStep { playing with adsr1 := 0x3200, envCnt := 0x4000 }).level = 5 ∧
    (envStep { playing with phase := .sustain, adsr2 := 0x1F80, level := 100, envCnt := 0x7FFF }).level = 105 ∧
    (envStep { playing with phase := .release, adsr2 := 0x000D, level := 20, envCnt := 0x6000 }).level = 13 := by decide

/-- Vectors E16 and E17: Off in the step that reaches 0; vector E19: Attack to Decay. -/
theorem test_env_transitions :
    (envStep { playing with phase := .release, adsr2 := 0x0020, level := 1 }).phase = .off ∧
    (envStep { playing with phase := .release, level := 4095 }).active = false ∧
    (envStep { playing with adsr1 := 0x00FF, level := 28672 }).phase = .decay ∧
    (envStep { playing with phase := .decay, adsr1 := 0x00FF, level := 32767 }).phase = .sustain := by decide

/-- R87: packing returns bit 13 of ADSR2 as 0, and loses nothing else. -/
theorem test_adsr_params : packAdsr (unpackAdsr 0x8F1F 0x2000) = (0x8F1F, 0) ∧
    packAdsr (unpackAdsr 0xFFFF 0xFFFF) = (0xFFFF, 0xDFFF) ∧ (unpackAdsr 0x1C4A 0x5FC6).releaseShift = 6 := by decide

/-! ### Interpolator, cursor, mixer, reverb -/

/-- A voice whose newest four samples are these, at the start of its block, with interpolation index `n`. -/
def taps (n : U16) (a b c d : I16) : Voice :=
  { Voice.reset with pcount := n <<< 4, carry := #v[a, b, c], dec := (Vector.replicate 28 0).set 0 d }

/-- Vectors I1, I2, I4, I6 and I8. -/
theorem test_interpolate : interpolate params (taps 0 1000 2000 3000 4000) = 1994 ∧
    interpolate params (taps 0x80 1000 2000 3000 4000) = 2492 ∧ interpolate params (taps 0 0 0 0 32767) = -1 ∧
    interpolate params (taps 0x40 (-32768) (-32768) (-32768) (-32768)) = -32640 ∧
    interpolate params (taps 0xC0 100 (-100) 100 (-100)) = 28 := by decide +kernel

/-- A table whose rows exceed the bound of R135: the sample is clamped. -/
def steepGauss : Config.Params := { params with gauss := fun _ => 0x4000 }

theorem test_interpolate_clamps : interpolate steepGauss (taps 0 32767 32767 32767 32767) = 32767 ∧
    interpolate steepGauss (taps 0 (-32768) (-32768) (-32768) (-32768)) = -32768 := by decide +kernel

/-- Vectors P2v, P3v, P4v and P9v: the new counter and sample index. -/
theorem test_advance :
    ((advance { Voice.reset with pcount := 0xF00, pitch := 0x1800, sidx := 27 }).pcount = 0x700) ∧
    ((advance { Voice.reset with pcount := 0xFFF, pitch := 0x3FFF, sidx := 27, hasBlock := true }).sidx = 3) ∧
    ((advance { Voice.reset with pcount := 0xFFF, pitch := 0xFFFF, sidx := 24, hasBlock := true }).hasBlock = false) ∧
    ((advance { Voice.reset with pitch := 0x4000, hasBlock := true }).sidx = 3) ∧
    ((advance { Voice.reset with pitch := 0x4000, hasBlock := true }).hasBlock = true) := by decide

/-- Vectors O1, O3 and O6, and the clamp of M1. -/
theorem test_voice_output : mulQ15 (mulQ15 1994 0x4000) 0x3FFF = 498 ∧ mulQ15 (mulQ15 (-1) 0x7FFF) 0x7FFF = -1 ∧
    mulQ15 (mulQ15 1000 0x7FFF) (-0x4000) = -500 ∧ (satI16 40000).toInt = 32767 := by decide

/-- Vectors M3 to M6. -/
theorem test_output_stage : outStage 16384 (-8192) 0x4000 0x4000 = mkRat 1 8 ∧ outStage 32767 5 0 0xFFFF = 1 ∧
    outStage (-32768) 5 0 0x4000 = -1 ∧ outStage 3726 0 0x2000 0x8000 = mkRat 5589 32768 := by decide +kernel

/-- The unit of vector R-3 before the step. -/
def unitR3 : Reverb :=
  { Reverb.reset with
    len := 64, cur := 5
    reg := #v[1, 1, 0x4000, 0x4000, 0x2000, 0, 0xE000, 0xC000, 0x4000, 0x2000, 2, 3, 1, 2, 0, 1, 1, 2, 4, 5, 3, 4, 4, 5,
              1, 2, 8, 9, 10, 11, 0x8000, 0x4000]
    buf := (List.range 64).filterMap fun i => if i = 30 then none else some (i, BitVec.ofInt 16 (100 * i - 3000)) }

/-- Vector R-3. -/
theorem test_core_step :
    let c := coreStep 1000 (-2000) unitR3
    c.left.toInt = 902 ∧ c.right.toInt = -1158 ∧ c.rev.cur = 6 ∧
      [13, 17, 21, 25, 37, 41, 45, 49].map (fun a => (cellRead c.rev.buf a).toInt) =
        [-875, -982, -782, -275, -1630, -80, -790, -1472] := by decide +kernel

/-- Vector R-1. -/
theorem test_fir : down params (Vector.replicate 39 10000) = 9999 ∧ upFull params (Vector.replicate 20 10000) = 9998 := by
  decide +kernel

/-- A table that is not half-band, with one odd tap besides the centre. -/
def oddTap : Config.Params := { params with fir39 := fun k => if k = 1 then 0x4000 else 0 }

/-- R204's general form: tap 1 meets the newest core output in a tick that ran no core, and nothing in one that did. -/
theorem test_up_general : halfBand oddTap = false ∧ upSample oddTap false ((Vector.replicate 20 0).set 19 1234) = 1234 ∧
    upSample oddTap true ((Vector.replicate 20 0).set 19 1234) = 0 := by decide +kernel

/-- R196 with its default, worked from the binary32 format: 1, -1/2, 1/3, 2^-149, and the two ties next to 1. -/
theorem test_f32 : nearestF32 1 = 0x3F800000 ∧ nearestF32 (-1 / 2) = 0xBF000000 ∧ nearestF32 (mkRat 1 3) = 0x3EAAAAAB ∧
    nearestF32 (mkRat 1 (2 ^ 149)) = 1 ∧ nearestF32 0 = 0 ∧ nearestF32 (1 - mkRat 1 (2 ^ 25)) = 0x3F800000 ∧
    nearestF32 (1 - mkRat 3 (2 ^ 25)) = 0x3F7FFFFE ∧ nearestF32 (mkRat 133 32768) = 0x3B850000 := by decide +kernel

/-- The properties that the spec prints for the default tables (93 items G4 and G6). -/
theorem test_tables : params.gauss 0x0FF = 0x12C7 ∧ params.gauss 0x100 = 0x1307 ∧ params.gauss 0x1FF = 0x59B3 ∧
    ((List.range 512).map params.gauss).sum = 4177922 ∧ ((List.range 39).map params.fir39).sum = 32766 := by
  decide +kernel

/-! ### Witnesses: concrete states and operands that meet the hypotheses of a statement together -/

theorem witness_EncodeOfDecode : decode (.hdr 23 0xFF) = .ok (.adpcmHdrF7 23 true 15) ∧
    decode (.flags 23 0xFB) = .ok (.adpcmFlagsLoop 23 31 false) ∧
    decode (.adsr1 23 0xFFFF) = .ok (.adsr1Word 23 true 31 3 15 15) ∧
    decode (.adsr2 23 0x2000) = .ok (.adsr2Word 23 false false true 0 0 false 0) ∧
    decode (.cmd 0x12FF000000000001) = .ok .allKeyOff := by decide

/-- Two words of `KEY_ON v3` that differ in both unused fields, and the encoding of a command that uses none. -/
theorem witness_UnusedFieldsAreIgnored :
    cmdOp 0x1003000000000000 = cmdOp 0x1003FFFF00000001 ∧ cmdIdx 0x1003000000000000 = cmdIdx 0x1003FFFF00000001 ∧
    (cmdOp 0x1003000000000000).toNat = 0x10 ∧ cmdData 0x1003000000000000 ≠ cmdData 0x1003FFFF00000001 ∧
    encode .revClear = .cmd 0x3200000000000000 := by decide

/-- The ends of the reserved ranges, each at the head of the port. -/
theorem witness_ReservedOpcodesAreRefused :
    [0x02, 0x0F, 0x13, 0x1F, 0x27, 0x2F, 0x33, 0x37, 0x3A, 0x3F, 0x44, 0xFF].all (fun op =>
      refuses (step { State.reset with port := [.cmd (cmdWord op 1 2 3)] }) (.reservedOpcode op)) = true := by decide

/-- The opcodes next to the reserved ranges decode. -/
theorem witness_ReservedOpcodesAreRefused_legal :
    [0x00, 0x01, 0x10, 0x12, 0x20, 0x26, 0x30, 0x32, 0x38, 0x39, 0x40, 0x43].all (fun op =>
      match decode (.cmd (cmdWord op 0 0 0)) with | .ok _ => true | .error _ => false) = true := by decide

theorem witness_StepRunsTheDecodedInstruction :
    (State.reset.withFetchWord 64 0x1003000000000000).port = [.cmd 0x1003000000000000] ∧
    decode (.cmd 0x1003000000000000) = .ok (.keyOn 3) ∧
    gives (exec (.keyOn 3) State.reset) { withVoice playing with port := [] } = true := by decide

theorem witness_OnlyReservedOpcodesStopTheBlock :
    decode (.cmd 0x0200000000000000) = .error (.reservedOpcode 2) ∧
    refuses (step (State.reset.withFetchWord 64 0x0200000000000000)) (.reservedOpcode 2) = true := by decide

theorem reset_voice_inv : Voice.reset.Inv := by constructor <;> decide

theorem reset_unit_inv : Reverb.reset.Inv params := by constructor <;> decide

/-- The invariants of a state that differs from reset in voice 3 only. -/
theorem withVoice_inv {v : Voice} (h : v.Inv) : (withVoice v).Inv where
  voices := by
    intro i
    show ((State.reset.voices.set 3 v)[i.val]).Inv
    rw [Vector.getElem_set]
    split
    · exact h
    · simpa [State.reset] using reset_voice_inv
  rev := reset_unit_inv
  mem_wf := rfl

theorem playing_inv : playing.Inv := by constructor <;> decide

theorem witness_StepKeepsTheInvariants : ({ withVoice playing with port := [.cmd 0x1103000000000000] } : State).Inv ∧
    after (step { withVoice playing with port := [.cmd 0x1103000000000000] })
      (fun t => t.voices[3].phase == .release) = true := by
  refine ⟨⟨(withVoice_inv playing_inv).voices, (withVoice_inv playing_inv).rev, (withVoice_inv playing_inv).mem_wf⟩, ?_⟩
  decide

/-- The voice index of `VoiceRegisterWrites`, `KeyOnArmsItsVoice`, `KeyOffReleases` and
`KeyOnThenKeyOffIsOffAfterOneTick`, at both ends of its range; the indices that `IndexOutOfRangeIsIgnored`
and the first clauses of `KeyOnArmsItsVoice` and `KeyOffReleases` are about. -/
theorem witness_indices : Names 0 0 ∧ Names 23 23 ∧ 24 ≤ (24 : Byte).toNat ∧ 24 ≤ (255 : Byte).toNat ∧
    33 ≤ (33 : Byte).toNat := by unfold Names; decide

/-- Both clauses of `KeyOffReleases`: each phase, on voice 3. -/
theorem witness_KeyOffReleases : Names 3 3 ∧
    [Phase.attack, .decay, .sustain].all (fun q => after (exec (.keyOff 3) (withVoice { playing with phase := q, level := 5 }))
      (fun t => t.voices[3] == { playing with phase := .release, level := 5 })) = true ∧
    gives (exec (.keyOff 3) (withVoice { playing with phase := .release, envCnt := 5 }))
      (withVoice { playing with phase := .release, envCnt := 5 }) = true := by unfold Names; decide

theorem witness_StoresWriteTheirBytes : Memory.wf [(0, 0xBE), (0x7FFFF, 0xEF)] = true ∧ Memory.wf State.reset.mem = true ∧
    (0x7FFFF : BitVec 32).toNat % 524288 = 524287 ∧ ((0x7FFFF : BitVec 32).toNat + 1) % 524288 = 0 := by decide

theorem witness_AddressesWrap : (0xFFFFFFFF : BitVec 32).toNat % 524288 = (0x7FFFF : BitVec 32).toNat % 524288 := by decide

/-- An instruction that writes neither memory, and one for each memory. -/
theorem witness_OnlyTheirWritersWriteTheMemories :
    gives (exec .nop { State.reset with mem := [(1, 2)] }) { State.reset with mem := [(1, 2)] } = true ∧
    (∀ a d, Instr.nop ≠ .memWr8 a d ∧ Instr.nop ≠ .memWr16 a d) ∧ Instr.nop ≠ .tick ∧ Instr.nop ≠ .revClear := by
  refine ⟨by decide, fun a d => ⟨?_, ?_⟩, ?_, ?_⟩ <;> intro h <;> cases h

theorem witness_OnlyThreeCommandsHaveAResult : after (exec (.memRd8 0) State.reset) (fun t => t.result != .none) = true ∧
    after (exec .nop State.reset) (fun t => t.result == .none) = true := by decide

/-- The three clauses of `RevWriteSetsARegisterOrTheLength` at the values where they meet. -/
theorem witness_RevWrite : (31 : Byte).toNat = (31 : Fin 32).val ∧ (32 : Byte).toNat = 32 ∧ 33 ≤ (33 : Byte).toNat := by decide

theorem witness_RevPresetLoadsItsRecord : (0 : Byte).toNat < onePreset.reverbPresets.length ∧
    onePreset.reverbPresets.length ≤ (1 : Byte).toNat := by decide

theorem witness_ZeroNibblesDecodeToSilence : params.filterPos (effFilter 0) = 0 ∧ params.filterNeg (effFilter 0) = 0 := by
  decide

theorem witness_FetchLoadsTheBlock : (waiting 1 2).active = true ∧ (waiting 1 2).hasBlock = false := by decide

/-- `AdvanceMovesTheCursor` and `RateOfPlay`: the counter's bound, and the sample index on both sides of 28. -/
theorem witness_AdvanceMovesTheCursor : (0xFFF : U16).toNat < 0x1000 ∧ 26 + (0xFFF + min 0x1000 0x3FFF) / 0x1000 < 28 ∧
    28 ≤ 27 + (0xFFF + min 0x1000 0x3FFF) / 0x1000 := by decide

theorem witness_BlockEndFollowsTheFlags : (2 : BitVec 3).getLsbD 0 = false ∧ (3 : BitVec 3).getLsbD 0 = true ∧
    (3 : BitVec 3).getLsbD 1 = true ∧ (1 : BitVec 3).getLsbD 0 = true ∧ (1 : BitVec 3).getLsbD 1 = false := by decide

/-- Words with sustain level 14 and 15. -/
theorem witness_SustainTargetValues : sustainLevel 0x00FE = 14 ∧ sustainLevel 0x00FF = 15 := by decide

/-- Both clauses of `EnvelopeCounterAndLevel`, on either side of 0x8000, for a phase of rate 48. -/
theorem witness_EnvelopeCounterAndLevel :
    (envAdjust (envBase 48 false 127).1 (envBase 48 false 127).2 48 false false 0).2 = 0x4000 ∧
    (0x3FFF : U16).toNat + 0x4000 < 0x8000 ∧ 0x8000 ≤ (0x4000 : U16).toNat + 0x4000 ∧ (0x7FFF : U16).toNat < 0x8000 := by
  decide

/-- `EnvelopeTransitionsAreExact`: a voice in each phase that has parameters, and one in Off. -/
theorem witness_EnvelopeTransitions : (∀ q ∈ [Phase.attack, .decay, .sustain, .release],
    (phaseParams playing.adsr1 playing.adsr2 q).isSome = true) ∧ Voice.reset.phase = .off := by decide

/-- The bands of `EnvelopeStepAndIncrementValues` at their ends: the level 0x6000, the rates 39, 40, 43, 44. -/
theorem witness_EnvelopeStepAndIncrement : envAdjust 16 0x8000 39 false true 0x6000 = (4, 0x8000) ∧
    envAdjust 14 0x8000 40 false true 0x6000 = (7, 0x4000) ∧ envAdjust 8 0x8000 43 false true 0x6000 = (4, 0x4000) ∧
    envAdjust 7 0x8000 44 false true 0x6000 = (7, 0x2000) ∧ envAdjust 14 0x8000 40 false true 0x5FFF = (14, 0x8000) := by
  decide

/-- The voice of `SlowRatesStepEveryPowerOfTwo` at the ends of its range of rates. -/
theorem witness_SlowRates :
    phaseParams 0 0x0C00 .sustain = some ⟨48, false, false, 127⟩ ∧ phaseParams 0 0x1AC0 .sustain = some ⟨107, false, false, 127⟩ ∧
    ({ playing with phase := .sustain, adsr2 := 0x0C00, level := 32760 } : Voice).envCnt = 0 ∧
    (32760 : I16).toInt = 32760 := by decide

/-- A change is due from level 1, where the floor still takes 1 off, and from level 0. -/
theorem witness_ExponentialDecrease : (envLevel true 1 (envAdjust (envBase 124 true 124).1 0 124 true true 1).1).toInt = 0 ∧
    (envLevel true 0 (envAdjust (envBase 0 true 124).1 0 0 true true 0).1).toInt = 0 := by decide

theorem witness_ReleaseReachesOff : ({ playing with phase := .release, adsr2 := 11, level := 32767 } : Voice).Inv ∧
    (11 : U16).toNat % 32 < 12 := by
  refine ⟨?_, by decide⟩
  constructor <;> decide

theorem witness_ReleaseAtTheLargestRateNeverEnds :
    ({ playing with phase := .release, adsr2 := 0x1F, level := 500 } : Voice).Inv ∧ (500 : I16) ≠ 0 ∧
    (0x1F : U16).toNat % 32 = 31 := by
  refine ⟨?_, by decide, by decide⟩
  constructor <;> decide

theorem witness_ExponentialAttackStalls : ({ playing with adsr1 := 0xE400, level := 0x6000, envCnt := 0x7FFF } : Voice).Inv ∧
    phaseParams 0xE400 0 .attack = some ⟨100, false, true, 127⟩ ∧ 0x6000 ≤ (0x6000 : I16).toInt ∧
    (0x6000 : I16).toInt < 0x7FFF := by
  refine ⟨?_, by decide, by decide, by decide⟩
  constructor <;> decide

/-- A phase change of each kind of `PhaseTransitionsAreComplete` that a key command or a lone word makes. -/
theorem witness_PhaseTransitions :
    after (exec (.keyOn 3) State.reset) (fun t => t.voices[3].phase != State.reset.voices[3].phase) = true ∧
    after (exec .allKeyOff (withVoice playing)) (fun t => t.voices[3].phase != playing.phase) = true ∧
    after (exec (.adpcmFlagsStop 3 0 false) (withVoice playing)) (fun t => t.voices[3].phase != playing.phase) = true := by
  decide

/-- Phase changes made by a TICK: Attack to Decay, Decay to Sustain, Release to Off. -/
theorem witness_PhaseTransitions_tick :
    [(({ playing with adsr1 := 0x00FF, level := 28672 } : Voice), Phase.decay),
      ({ playing with phase := .decay, adsr1 := 0x00FF, level := 32767 }, .sustain),
      ({ playing with phase := .release, level := 7 }, .off)].all (fun x =>
        (voiceTick params [] x.1).voice.phase == x.2) = true := by decide +kernel

/-- `VoiceTickOrder`: an active voice that the envelope leaves active, and one that it turns Off. -/
theorem witness_VoiceTickOrder : playing.active = true ∧ (envStep (fetch params [] playing)).active = true ∧
    (envStep (fetch params [] { playing with phase := .release })).active = false := by decide +kernel

theorem witness_InactiveVoiceIsFrozen : State.reset.voices[3].active = false ∧
    ({ Voice.reset with pitch := 0x1000, volL := 5 } : Voice).active = false := by decide

/-- `VoiceOutputFitsSixteenBits` and `MixIsTheSumOfIsolatedVoices`: a sounding voice in a state with the invariants. -/
theorem witness_invariants : playing.Inv ∧ (withVoice { playing with level := 0x7FFF, volL := 0x7FFF }).Inv := by
  refine ⟨playing_inv, withVoice_inv ?_⟩
  constructor <;> decide

/-- `OutputStageDoesNotFeedBack`: two states that differ in the output registers, with the same voices, memory and unit. -/
theorem witness_OutputStageDoesNotFeedBack : ({ State.reset with wetQ15 := 1 } : State) ≠ { State.reset with masterQ14 := 2 } ∧
    ({ State.reset with wetQ15 := 1 } : State).voices = ({ State.reset with masterQ14 := 2 } : State).voices ∧
    ({ State.reset with wetQ15 := 1 } : State).rev = ({ State.reset with masterQ14 := 2 } : State).rev := by decide

/-- The default table meets the bound of `InterpolateIsTheWeightedSum` in its first and its last row; another does not. -/
theorem witness_InterpolateIsTheWeightedSum :
    |params.gauss 255| + |params.gauss 511| + |params.gauss 256| + |params.gauss 0| < 32768 ∧
    |params.gauss 0| + |params.gauss 256| + |params.gauss 511| + |params.gauss 255| < 32768 ∧
    ¬ |steepGauss.gauss 255| + |steepGauss.gauss 511| + |steepGauss.gauss 256| + |steepGauss.gauss 0| < 32768 := by
  decide +kernel

/-- A run of a TICK that turns a voice Off at the end of its block, as `PhaseTransitionsAreComplete` has it. -/
theorem witness_PhaseTransitions_end :
    let v : Voice := { playing with hasBlock := true, blkFlags := 1, sidx := 27, pitch := 0x1000 }
    (voiceTick params [] v).voice.phase = .off ∧
      28 ≤ v.sidx.val + wholeSamples (v.pcount + BitVec.ofNat 16 (pitchStep v.pitch)) := by decide +kernel

/-- Both clauses of `ReverbRunsEverySecondTick`. -/
theorem witness_ReverbRunsEverySecondTick : Reverb.reset.phase = false ∧ ({ unitR3 with phase := true } : Reverb).phase = true :=
  ⟨rfl, rfl⟩

/-- The default table meets the premise of `UpSamplerIsTheGeneralForm` and of `ReverbRunsEverySecondTick`. -/
theorem witness_UpSamplerIsTheGeneralForm : (∀ k, k < 39 → k % 2 = 1 → k ≠ 19 → params.fir39 k = 0) ∧
    params.fir39 19 = 0x4000 ∧ (∀ k, k ≤ 38 → params.fir39 (38 - k) = params.fir39 k) := by
  refine ⟨?_, rfl, ?_⟩
  · intro k h; revert k; decide
  · intro k h; have : k < 39 := by omega
    clear h; revert k; decide

/-- Both clauses of `CoreStepWritesEightAddresses`, with an address that no stage writes. -/
theorem witness_CoreStep : Reverb.reset.len = 0 ∧ 0 < unitR3.len ∧
    ∀ m ∈ [RevReg.mLSAME, .mRSAME, .mLDIFF, .mRDIFF, .mLAPF1, .mLAPF2, .mRAPF1, .mRAPF2],
      0 ≠ revAddr unitR3 (revOffset unitR3 m) := by decide

/-- `HeaderWordsDecodeTheBlock`, `FlagsWordsEndTheBlock` and `FetchIsTheDecodedHeaderWord`: a voice that waits for its
block, one that holds a block and one that is idle. -/
theorem witness_pipeline_words : (withVoice playing).voices[3].active = true ∧
    (withVoice playing).voices[3].hasBlock = false ∧ (atEnd 0x20).voices[3].hasBlock = true ∧
    State.reset.voices[3].active = false := by decide

end Sys2Proof.Tests
end

section
/-! PROOFS. The family 20_memory.md: addressing of the sample memory (R60 to R64). -/

namespace Sys2Proof.Machine

/-! ### What the four memory commands do -/

theorem exec_memRd8 (addr : BitVec 32) (s : State) :
    exec (.memRd8 addr) s = done s (.byte (memByte s.mem addr.toNat)) := rfl

theorem exec_memRd16 (addr : BitVec 32) (s : State) :
    exec (.memRd16 addr) s = done s (.half (memHalf s.mem addr.toNat)) := rfl

theorem exec_memWr8 (addr : BitVec 32) (d : U16) (s : State) :
    exec (.memWr8 addr d) s = done { s with mem := memSetByte s.mem addr.toNat (dataLow d) } .none := rfl

theorem exec_memWr16 (addr : BitVec 32) (d : U16) (s : State) :
    exec (.memWr16 addr d) s = done { s with mem := memSetHalf s.mem addr.toNat d } .none := rfl

/-! ### Each access depends on its address modulo `RAM_BYTES` alone (R61)

A half-word and a block take the modulus of each of their byte addresses, so their lemmas rest on those of a byte, at
addresses moved by the same offset. -/

section
variable {a b : Nat}

theorem memByte_congr (m : List Host.Cell) (h : a ≡ b [MOD RAM_BYTES]) : memByte m a = memByte m b :=
  congrArg (cellRead m) h

theorem memSetByte_congr (m : List Host.Cell) (x : Byte) (h : a ≡ b [MOD RAM_BYTES]) :
    memSetByte m a x = memSetByte m b x :=
  congrArg (cellWrite m · x) h

theorem memHalf_congr (m : List Host.Cell) (h : a ≡ b [MOD RAM_BYTES]) : memHalf m a = memHalf m b := by
  simp only [memHalf, memByte_congr m h, memByte_congr m (h.add_right 1)]

theorem memSetHalf_congr (m : List Host.Cell) (x : U16) (h : a ≡ b [MOD RAM_BYTES]) :
    memSetHalf m a x = memSetHalf m b x := by
  simp only [memSetHalf, memSetByte_congr _ _ h, memSetByte_congr _ _ (h.add_right 1)]

theorem blockData_congr (m : List Host.Cell) (h : a ≡ b [MOD RAM_BYTES]) : blockData m a = blockData m b := by
  have hk (k : Nat) : memByte m (a + 2 + k) = memByte m (b + 2 + k) :=
    memByte_congr m ((h.add_right 2).add_right k)
  simp only [blockData, hk]

end

/-- Settles O20: the four commands by the congruence of the access each one makes, the two reads because adding
`RAM_BYTES` keeps the residue. -/
theorem addressesWrap : Obligations.AddressesWrap := by
  refine ⟨fun s a b d h => ⟨?rd8, ?rd16, ?wr8, ?wr16⟩, fun m a => ?shift⟩
  case rd8 => rw [exec_memRd8, exec_memRd8, memByte_congr s.mem h]
  case rd16 => rw [exec_memRd16, exec_memRd16, memHalf_congr s.mem h]
  case wr8 => rw [exec_memWr8, exec_memWr8, memSetByte_congr s.mem _ h]
  case wr16 => rw [exec_memWr16, exec_memWr16, memSetHalf_congr s.mem _ h]
  case shift =>
    have h : a + RAM_BYTES ≡ a [MOD RAM_BYTES] := Nat.add_mod_right a RAM_BYTES
    exact ⟨memByte_congr m h, blockData_congr m h⟩

end Sys2Proof.Machine
end

section
/-! PROOFS. The family 30_encoding.md: the opcode map of R94, reserved opcodes (R95), unused fields (R97), indices out of
range (R96) and the sustain target (R90). -/

namespace Sys2Proof

/-! ### Which command words decode (R94, R95) -/

theorem decodeCmd_of_mem_opcodes {w : CmdWord} (h : (cmdOp w).toNat ∈ opcodes) : ∃ i, decodeCmd w = .ok i := by
  unfold decodeCmd
  split
  case h_22 => simp_all [opcodes]
  all_goals exact ⟨_, rfl⟩

theorem decodeCmd_of_notMem_opcodes {w : CmdWord} (h : (cmdOp w).toNat ∉ opcodes) :
    decodeCmd w = .error (.reservedOpcode (cmdOp w)) := by
  unfold decodeCmd
  split
  case h_22 => rfl
  all_goals next hop => exact absurd (by rw [hop]; decide) h

/-- The six reserved ranges of R95. -/
def InReservedRange (n : Nat) : Prop :=
  (0x02 ≤ n ∧ n ≤ 0x0F) ∨ (0x13 ≤ n ∧ n ≤ 0x1F) ∨ (0x27 ≤ n ∧ n ≤ 0x2F) ∨ (0x33 ≤ n ∧ n ≤ 0x37) ∨
    (0x3A ≤ n ∧ n ≤ 0x3F) ∨ (0x44 ≤ n ∧ n ≤ 0xFF)

/-- The reserved ranges are what R94's map leaves of the 256 opcodes. -/
theorem inReservedRange_iff_notMem_opcodes (op : Byte) : InReservedRange op.toNat ↔ op.toNat ∉ opcodes := by
  have hlt : op.toNat < 256 := op.isLt
  simp only [InReservedRange, opcodes, List.mem_cons, List.not_mem_nil, or_false]
  omega

/-- An item that does not decode stops the step with its refusal (R303). -/
theorem Machine.step_of_decode_error {s : Machine.State} {it : Item} {rest : List Item} {e : DecodeError}
    (hport : s.port = it :: rest) (he : decode it = .error e) :
    Machine.step s = .refused (Machine.refusalOf e) := by
  simp only [Machine.step, hport, he]

/-- Settles O4: the reserved ranges are the complement of the opcode map, and the map says what decodes. -/
theorem reservedOpcodesAreRefused : Obligations.ReservedOpcodesAreRefused := by
  refine ⟨fun s w rest hport hres => ?refused, fun w hlegal => ?decodes⟩
  case refused =>
    have hop : (cmdOp w).toNat ∉ opcodes := (inReservedRange_iff_notMem_opcodes _).1 hres
    exact Machine.step_of_decode_error hport (decodeCmd_of_notMem_opcodes hop)
  case decodes =>
    have hop : (cmdOp w).toNat ∈ opcodes :=
      not_not.1 fun hmem => hlegal ((inReservedRange_iff_notMem_opcodes _).2 hmem)
    exact decodeCmd_of_mem_opcodes hop

/-! ### The fields a command does not use (R97)

Both halves of R97 are about the word with its unused fields cleared: the decoder does not tell a word from its cleared
word, and the words the encoder writes are cleared already. -/

/-- The opcodes whose commands use `idx` (R94). -/
def usesIdx : List Nat := [0x10, 0x11, 0x20, 0x21, 0x22, 0x23, 0x24, 0x25, 0x26, 0x30, 0x31]

/-- The opcodes whose commands use `data` (R94). -/
def usesData : List Nat := [0x20, 0x21, 0x22, 0x23, 0x24, 0x25, 0x26, 0x30, 0x38, 0x39, 0x40, 0x41]

/-- The opcodes whose commands use `addr` (R94). -/
def usesAddr : List Nat := [0x40, 0x41, 0x42, 0x43]

/-- The command word with 0 in every field that its opcode does not use. -/
def clearUnused (w : CmdWord) : CmdWord :=
  cmdWord (cmdOp w) (if (cmdOp w).toNat ∈ usesIdx then cmdIdx w else 0)
    (if (cmdOp w).toNat ∈ usesData then cmdData w else 0) (if (cmdOp w).toNat ∈ usesAddr then cmdAddr w else 0)

@[simp] theorem cmdOp_clearUnused (w : CmdWord) : cmdOp (clearUnused w) = cmdOp w := cmdOp_cmdWord _ _ _ _

@[simp] theorem cmdIdx_clearUnused (w : CmdWord) :
    cmdIdx (clearUnused w) = if (cmdOp w).toNat ∈ usesIdx then cmdIdx w else 0 := cmdIdx_cmdWord _ _ _ _

@[simp] theorem cmdData_clearUnused (w : CmdWord) :
    cmdData (clearUnused w) = if (cmdOp w).toNat ∈ usesData then cmdData w else 0 := cmdData_cmdWord _ _ _ _

@[simp] theorem cmdAddr_clearUnused (w : CmdWord) :
    cmdAddr (clearUnused w) = if (cmdOp w).toNat ∈ usesAddr then cmdAddr w else 0 := cmdAddr_cmdWord _ _ _ _

theorem clearUnused_cmdWord (op idx : Byte) (data : U16) (addr : BitVec 32) :
    clearUnused (cmdWord op idx data addr) =
      cmdWord op (if op.toNat ∈ usesIdx then idx else 0) (if op.toNat ∈ usesData then data else 0)
        (if op.toNat ∈ usesAddr then addr else 0) := by
  simp only [clearUnused, cmdOp_cmdWord, cmdIdx_cmdWord, cmdData_cmdWord, cmdAddr_cmdWord]

/-- The decoder ignores the fields that R94 does not name for the opcode: each row of the map reads only its own. -/
theorem decodeCmd_clearUnused (w : CmdWord) : decodeCmd (clearUnused w) = decodeCmd w := by
  simp only [decodeCmd, cmdOp_clearUnused, cmdIdx_clearUnused, cmdData_clearUnused, cmdAddr_clearUnused]
  split
  case h_22 => rfl
  all_goals next hop => simp [hop, usesIdx, usesData, usesAddr]

/-- Two words that agree on the opcode and on the fields it uses are the same word once the others are cleared. -/
theorem clearUnused_congr {w w' : CmdWord} (hop : cmdOp w = cmdOp w')
    (hidx : (cmdOp w).toNat ∈ usesIdx → cmdIdx w = cmdIdx w')
    (hdata : (cmdOp w).toNat ∈ usesData → cmdData w = cmdData w')
    (haddr : (cmdOp w).toNat ∈ usesAddr → cmdAddr w = cmdAddr w') : clearUnused w = clearUnused w' := by
  unfold clearUnused
  rw [← hop, if_ctx_congr Iff.rfl hidx (fun _ => rfl), if_ctx_congr Iff.rfl hdata (fun _ => rfl),
    if_ctx_congr Iff.rfl haddr (fun _ => rfl)]

/-- The encoder writes command words whose unused fields are 0 already: no other item is a command word, and each row of
the encoder holds an operand only where clearing keeps it. -/
theorem clearUnused_of_encode {i : Instr} {w : CmdWord} (h : encode i = .cmd w) : clearUnused w = w := by
  cases i <;> cases h
  all_goals exact clearUnused_cmdWord _ _ _ _

/-- Settles O3: both halves through the word with its unused fields cleared. -/
theorem unusedFieldsAreIgnored : Obligations.UnusedFieldsAreIgnored := by
  refine ⟨fun w w' hop hidx hdata haddr => ?decoder, fun i w h => ?encoder⟩
  case decoder =>
    calc decodeCmd w = decodeCmd (clearUnused w) := (decodeCmd_clearUnused w).symm
      _ = decodeCmd (clearUnused w') := by rw [clearUnused_congr hop hidx hdata haddr]
      _ = decodeCmd w' := decodeCmd_clearUnused w'
  case encoder =>
    have hw : clearUnused w = w := clearUnused_of_encode h
    refine ⟨fun hidx => ?_, fun hdata => ?_, fun haddr => ?_⟩
    · rw [← hw]; exact (cmdIdx_clearUnused w).trans (if_neg hidx)
    · rw [← hw]; exact (cmdData_clearUnused w).trans (if_neg hdata)
    · rw [← hw]; exact (cmdAddr_clearUnused w).trans (if_neg haddr)

end Sys2Proof

namespace Sys2Proof.Machine

/-! ### Indices out of range (R96) -/

/-- An instruction that ends on the state it began with completes and changes at most the result. -/
theorem done_unchanged {s t : State} {r : Result} (h : t = s) :
    ∃ u, done t r = .next u ∧ { u with result := s.result } = s := by
  subst h
  exact ⟨_, rfl, rfl⟩

theorem writeReverb_ignored (p : Config.Params) {idx : Byte} (d : U16) (r : Reverb) (h : 33 ≤ idx.toNat) :
    writeReverb p idx d r = r := by
  unfold writeReverb
  rw [dif_neg (by omega), if_neg (by omega)]

theorem choosePreset_ignored {p : Config.Params} {idx : Byte} (r : Reverb) (h : p.reverbPresets.length ≤ idx.toNat) :
    choosePreset p idx r = r := by
  unfold choosePreset
  rw [List.getElem?_eq_none h]

/-- Settles O13: the voice commands all go through `updVoice`, the two reverb commands through `writeReverb` and
`choosePreset`, and each of these ignores an index out of its range. -/
theorem indexOutOfRangeIsIgnored : Obligations.IndexOutOfRangeIsIgnored := by
  refine ⟨fun idx d h => ?voices, fun idx d h s => ?revWrite, fun idx h s => ?revPreset⟩
  case voices =>
    have hvoice (f : Voice → Voice) (s : State) :
        ∃ u, done (updVoice s idx f) .none = .next u ∧ { u with result := s.result } = s :=
      done_unchanged (updVoice_ignored f h)
    exact ⟨hvoice _, hvoice _, hvoice _, hvoice _, hvoice _, hvoice _, hvoice _, hvoice _, hvoice _⟩
  case revWrite =>
    have hrev : { s with rev := writeReverb params idx d s.rev } = s := by rw [writeReverb_ignored params d s.rev h]
    exact done_unchanged hrev
  case revPreset =>
    have hrev : { s with rev := choosePreset params idx s.rev } = s := by rw [choosePreset_ignored s.rev h]
    exact done_unchanged hrev

/-! ### The sustain target (R90) -/

theorem sustainTarget_eq_min_shiftLeft (a1 : U16) :
    sustainTarget a1 = min ((((sustainLevel a1).toNat + 1) <<< 11 : ℕ) : Int) 0x7FFF := by
  unfold sustainTarget
  simp only [Nat.shiftLeft_eq, Nat.reducePow]

/-- Settles O36: the shift by 11 is the model's factor 2048; at level 14 the product is the minimum, at level 15 the
clamp is. -/
theorem sustainTargetValues : Obligations.SustainTargetValues := by
  refine fun a1 => ⟨sustainTarget_eq_min_shiftLeft a1, fun h => ?level14, fun h => ?level15⟩
  case level14 =>
    have hlevel : (sustainLevel a1).toNat = 14 := by rw [h]; rfl
    unfold sustainTarget
    omega
  case level15 =>
    have hlevel : (sustainLevel a1).toNat = 15 := by rw [h]; rfl
    unfold sustainTarget
    omega

end Sys2Proof.Machine
end

section
/-! PROOFS. The family 40_adpcm_decoder.md: the block decode as a recurrence (R111, R112). -/

namespace Sys2Proof.Machine

theorem sat16_eq_max_min (x : Int) : sat16 x = max (-32768) (min 32767 x) := by
  unfold sat16 clamp
  split <;> [omega; split <;> omega]

/-- R112 in integers: each of the three terms is floored on its own, their sum is clamped once. -/
theorem toInt_decodeSample (p : Config.Params) (shift filter : Nat) (nib : BitVec 4) (prev1 prev2 : I16) :
    (decodeSample p shift filter nib prev1 prev2).toInt =
      max (-32768) (min 32767 (nib.toInt * 4096 / 2 ^ shift + prev1.toInt * p.filterPos filter / 64 +
        prev2.toInt * p.filterNeg filter / 64)) := by
  simp only [decodeSample, toInt_satI16, sat16_eq_max_min, asr, Int.reducePow]

/-- The nibble order of R85: byte `k / 2` gives the nibbles of both parities, the low one first. -/
theorem getElem_nibbles {bs : List Byte} {k : Nat} (h : k < (nibbles bs).length) (hb : k / 2 < bs.length) :
    (nibbles bs)[k] = if k % 2 = 0 then lowNibble bs[k / 2] else highNibble bs[k / 2] := by
  induction bs generalizing k with
  | nil => simp at hb
  | cons b bs ih =>
    match k with
    | 0 => rfl
    | 1 => rfl
    | k + 2 =>
      have hdiv : (k + 2) / 2 = k / 2 + 1 := Nat.add_div_right k (by decide)
      simp only [nibbles, List.length_cons] at h hb
      have hk := ih (k := k) (by omega) (by omega)
      simpa only [nibbles, List.getElem_cons_succ, hdiv, Nat.add_mod_right] using hk

/-! ### The recurrence

Behind the pair it starts from, the decoded sequence is one list in which every sample comes from the two entries before
it; the samples at the start of a block need no case of their own. -/

/-- The samples behind the predictor pair, oldest first: sample `k` is entry `k + 2`. -/
def sampleHistory (p : Config.Params) (shift filter : Nat) (ns : List (BitVec 4)) (prev1 prev2 : I16) : List I16 :=
  prev2 :: prev1 :: decodeNibbles p shift filter ns prev1 prev2

section
variable (p : Config.Params) (shift filter : Nat)

/-- Decoding one nibble moves the predictor pair one sample on (R112). -/
theorem sampleHistory_cons (n : BitVec 4) (ns : List (BitVec 4)) (prev1 prev2 : I16) :
    sampleHistory p shift filter (n :: ns) prev1 prev2 =
      prev2 :: sampleHistory p shift filter ns (decodeSample p shift filter n prev1 prev2) prev1 := rfl

@[simp] theorem length_sampleHistory (ns : List (BitVec 4)) (prev1 prev2 : I16) :
    (sampleHistory p shift filter ns prev1 prev2).length = ns.length + 2 := by
  simp [sampleHistory, decodeNibbles_length]

theorem getElem_sampleHistory_add_two {ns : List (BitVec 4)} {prev1 prev2 : I16} {k : Nat} (h : k < ns.length) :
    (sampleHistory p shift filter ns prev1 prev2)[k + 2]'(by simpa using h) =
      decodeSample p shift filter ns[k]
        ((sampleHistory p shift filter ns prev1 prev2)[k + 1]'(by simp; omega))
        ((sampleHistory p shift filter ns prev1 prev2)[k]'(by simp; omega)) := by
  induction ns generalizing k prev1 prev2 with
  | nil => simp at h
  | cons n ns ih =>
    cases k with
    | zero => rfl
    | succ k => simpa only [sampleHistory_cons, List.getElem_cons_succ] using ih (Nat.lt_of_succ_lt_succ h)

end

/-! ### The recurrence over a block -/

section
variable (p : Config.Params) (shift filter : Nat) (data : Vector Byte 14) (prev1 prev2 : I16)

/-- The 28 samples of a block behind the predictor pair it starts from. -/
def blockHistory : Vector I16 30 :=
  ⟨⟨sampleHistory p shift filter (nibbles data.toList) prev1 prev2⟩, by simp [nibbles_length]⟩

/-- Each sample of a block from its nibble and the two entries before it. -/
theorem getElem_decodeSamples {k : Nat} (h : k < 28) :
    (decodeSamples p shift filter data prev1 prev2)[k] =
      decodeSample p shift filter (if k % 2 = 0 then lowNibble data[k / 2] else highNibble data[k / 2])
        (blockHistory p shift filter data prev1 prev2)[k + 1] (blockHistory p shift filter data prev1 prev2)[k] := by
  have hk : k < (nibbles data.toList).length := by simpa [nibbles_length] using h
  have hnib := getElem_nibbles hk (by simp; omega)
  rw [Vector.getElem_toList] at hnib
  rw [← hnib]
  exact getElem_sampleHistory_add_two p shift filter hk

/-- The entry before sample `k`: the sample before it, or at the start of the block the predictor `prev1`. -/
theorem getElem_blockHistory_add_one {k : Nat} (h : k < 28) :
    (blockHistory p shift filter data prev1 prev2)[k + 1] =
      if h1 : 1 ≤ k then (decodeSamples p shift filter data prev1 prev2)[k - 1] else prev1 := by
  match k with
  | 0 => rfl
  | k + 1 => rfl

/-- The entry two before sample `k`: for the first two samples it is one of the predictor pair. -/
theorem getElem_blockHistory {k : Nat} (h : k < 28) :
    (blockHistory p shift filter data prev1 prev2)[k] =
      if h2 : 2 ≤ k then (decodeSamples p shift filter data prev1 prev2)[k - 2]
      else if k = 1 then prev1 else prev2 := by
  match k with
  | 0 => rfl
  | 1 => rfl
  | k + 2 => rfl

end

/-- Settles O28: every sample comes from the two entries before it in the block's history, and those entries are the
samples before it or, at the start of the block, the predictor pair. -/
theorem decodeBlockIsTheRecurrence : Obligations.DecodeBlockIsTheRecurrence := by
  intro p f sh data p1 p2 shift filter r before1 before2 nib
  refine ⟨fun k => ?_, rfl, rfl⟩
  let hist := blockHistory p shift filter data p1 p2
  have hbefore1 : before1 k = hist[k.val + 1].toInt := by
    rw [getElem_blockHistory_add_one p shift filter data p1 p2 k.isLt, apply_dite BitVec.toInt]
    rfl
  have hbefore2 : before2 k = hist[k.val].toInt := by
    rw [getElem_blockHistory p shift filter data p1 p2 k.isLt, apply_dite BitVec.toInt, apply_ite BitVec.toInt]
    rfl
  have hsample : r.1[k] = decodeSample p shift filter (nib k) hist[k.val + 1] hist[k.val] :=
    getElem_decodeSamples p shift filter data p1 p2 k.isLt
  rw [hsample, toInt_decodeSample, hbefore1, hbefore2]

end Sys2Proof.Machine
end

section
/-! PROOFS. The family 41_pitch_interpolator.md: the fetch (R132, R133), the advance (R137) and the end of a block
(R138, R139). -/

namespace Sys2Proof.Machine

/-! ### The pitch counter in numbers (R137) -/

theorem wholeSamples_eq_div (cnt : U16) : wholeSamples cnt = cnt.toNat / 0x1000 := by
  have hlt : cnt.toNat / 2 ^ 12 < 2 ^ 4 := Nat.div_lt_of_lt_mul cnt.isLt
  rw [wholeSamples, BitVec.extractLsb'_toNat, Nat.shiftRight_eq_div_pow]
  exact Nat.mod_eq_of_lt hlt

theorem fraction_eq_mod (cnt : U16) : fraction cnt = BitVec.ofNat 16 (cnt.toNat % 0x1000) := by
  have hmask : (cnt &&& 0x0FFF).toNat = cnt.toNat % 0x1000 :=
    (BitVec.toNat_and cnt 0x0FFF).trans (Nat.and_two_pow_sub_one_eq_mod cnt.toNat 12)
  rw [fraction, ← hmask, BitVec.ofNat_toNat, BitVec.setWidth_eq]

theorem pitchStep_le (pitch : U16) : pitchStep pitch ≤ 0x3FFF := Nat.min_le_right _ _

section
variable {v : Voice}

/-- From a counter that holds a fraction alone the sixteen-bit addition does not overflow (R137). -/
theorem toNat_pcount_add_pitchStep (h : v.pcount.toNat < 0x1000) :
    (v.pcount + BitVec.ofNat 16 (pitchStep v.pitch)).toNat = v.pcount.toNat + pitchStep v.pitch := by
  have hstep := pitchStep_le v.pitch
  rw [BitVec.toNat_add, BitVec.toNat_ofNat]
  omega

theorem moved_eq (h : v.pcount.toNat < 0x1000) :
    moved v = { v with
      pcount := BitVec.ofNat 16 ((v.pcount.toNat + pitchStep v.pitch) % 0x1000)
      sidx := Fin.ofNat 28 (v.sidx.val + (v.pcount.toNat + pitchStep v.pitch) / 0x1000) } := by
  rw [moved, fraction_eq_mod, wholeSamples_eq_div, toNat_pcount_add_pitchStep h]

/-- `Advance` looks at the cursor before it is brought back into the block (R137). -/
theorem advance_eq (h : v.pcount.toNat < 0x1000) :
    advance v =
      if v.sidx.val + (v.pcount.toNat + pitchStep v.pitch) / 0x1000 < 28 then moved v else blockEnd (moved v) := by
  rw [← toNat_pcount_add_pitchStep h, ← wholeSamples_eq_div]
  rfl

end

/-- The cursor's arithmetic modulo 28 takes the finished block's samples off. -/
theorem finOfNat_sub_blockSamples {n : Nat} (h : 28 ≤ n) : Fin.ofNat 28 (n - 28) = Fin.ofNat 28 n :=
  Fin.ext (Nat.mod_eq_sub_mod h).symm

/-- Settles O32: the bounds by arithmetic, the two outcomes by the side of 28 on which the cursor falls. -/
theorem advanceMovesTheCursor : Obligations.AdvanceMovesTheCursor := by
  intro v hfrac total next
  have htotal : total ≤ 0x4FFE := by omega
  have hwhole : total / 0x1000 ≤ 4 := by omega
  have hmoved : moved v = { v with pcount := BitVec.ofNat 16 (total % 0x1000), sidx := Fin.ofNat 28 next } :=
    moved_eq hfrac
  refine ⟨htotal, hwhole, fun hin => ?inside, fun hout => ⟨?rest, ?outside⟩⟩
  case inside => rw [← hmoved]; exact (advance_eq hfrac).trans (if_pos hin)
  case rest => have := v.sidx.isLt; omega
  case outside =>
    rw [finOfNat_sub_blockSamples hout, ← hmoved]
    exact (advance_eq hfrac).trans (if_neg (Nat.not_lt.mpr hout))

/-! ### The fetch (R132, R133) -/

theorem blockData_eq_ofFn (m : List Host.Cell) (a : Nat) :
    blockData m a = Vector.ofFn fun k : Fin 14 => memByte m (a + (2 + k.val)) := by
  ext k hk
  simp [blockData, Nat.add_assoc]

/-- Loop-start is bit 2 of the flags byte (R84). -/
theorem loopStart_flagsField (b : Byte) : loopStart (flagsField b) = b.getLsbD 2 := by
  simp [loopStart, flagsField]

section
variable (p : Config.Params) (m : List Host.Cell) {v : Voice}

theorem fetchIfDue_of_hasBlock (h : v.hasBlock = true) : fetchIfDue p m v = v := if_pos h

theorem fetchIfDue_of_not_hasBlock (h : v.hasBlock = false) : fetchIfDue p m v = fetch p m v := by
  rw [fetchIfDue, h]
  rfl

/-- A fetched voice has its block, so the tick's own fetch leaves it alone. -/
theorem fetchIfDue_fetch : fetchIfDue p m (fetch p m v) = fetch p m v :=
  fetchIfDue_of_hasBlock p m (fetch_hasBlock p m v)

/-- The tick of an active voice looks at the voice only after the fetch (R180). -/
theorem voiceTick_congr {w : Voice} (hv : v.active = true) (hw : w.active = true)
    (h : fetchIfDue p m v = fetchIfDue p m w) : voiceTick p m v = voiceTick p m w := by
  simp only [voiceTick, hv, hw, h, if_true]

end

/-- Settles O30: the two halves of the fetch field by field, and the tick because it depends on the fetched voice
alone. -/
theorem fetchLoadsTheBlock : Obligations.FetchLoadsTheBlock := by
  intro p m v B d
  refine ⟨?fields, fun hactive hblock => ?tick⟩
  case fields =>
    simp only [fetch, latchFlags, loadBlock, loopStart_flagsField, blockData_eq_ofFn]
    rfl
  case tick =>
    have hfetch : fetchIfDue p m v = fetchIfDue p m (fetch p m v) := by
      rw [fetchIfDue_fetch, fetchIfDue_of_not_hasBlock p m hblock]
    exact voiceTick_congr p m hactive ((fetch_active p m v).trans hactive) hfetch

/-! ### The end of a block (R138, R139) -/

/-- The next block's address wraps at the end of the sample memory (R61). -/
theorem toNat_curAddr_add_16 (a : BitVec 19) : (a + 16).toNat = (a.toNat + 16) % 524288 := BitVec.toNat_add a 16

/-- Settles O34: each of the three things a block end can do meets its own clause, and its flags exclude the
other two. -/
theorem blockEndFollowsTheFlags : Obligations.BlockEndFollowsTheFlags := by
  intro v
  change (loopEnd v.blkFlags = false → _) ∧ (loopEnd v.blkFlags = true → loopRepeat v.blkFlags = true → _) ∧
    (loopEnd v.blkFlags = true → loopRepeat v.blkFlags = false → _)
  obtain ⟨hend, hnext⟩ | ⟨hend, hrep, hjump⟩ | ⟨hend, hrep, hstop⟩ := blockEnd_cases v
  · simp only [hend, Bool.false_eq_true, false_implies, and_true, true_implies]
    exact ⟨_, toNat_curAddr_add_16 _, hnext⟩
  · simpa [hend, hrep] using hjump
  · simpa [hend, hrep, voiceOff] using hstop

end Sys2Proof.Machine
end

section
/-! PROOFS. The family 42_adsr_envelope.md: the base values and their exponential adjustment (R153, R154), the counter
and the level (R155, R156), and the transitions (R157). -/

namespace Sys2Proof.Machine

/-! ### The base values (R153) -/

theorem envBase_step (rate rateMax : Nat) (decreasing : Bool) :
    (envBase rate decreasing rateMax).1 =
      let m : Int := if decreasing then -(7 - (rate % 4 : ℕ)) else 7 - (rate % 4 : ℕ)
      if rate < 44 then m * 2 ^ (11 - rate / 4) else m := by
  unfold envBase
  by_cases h44 : rate < 44
  · simp only [if_pos h44]
  · by_cases h48 : rate < 48
    · simp only [if_neg h44, if_pos h48]
    · simp only [if_neg h44, if_neg h48]

/-- The increment before its floor of 1, at the rates where the shift leaves something of it. -/
theorem shiftedIncrement_of_lt {rate : Nat} (h48 : 48 ≤ rate) (h108 : rate < 108) :
    0x8000 / 2 ^ (rate / 4 - 11) = 2 ^ (26 - rate / 4) := by
  have hexp : 15 - (rate / 4 - 11) = 26 - rate / 4 := by omega
  rw [← hexp]
  exact Nat.pow_div (show rate / 4 - 11 ≤ 15 by omega) Nat.two_pos

/-- From rate 108 on the shift takes every bit of the increment away. -/
theorem shiftedIncrement_of_ge {rate : Nat} (h108 : 108 ≤ rate) : 0x8000 / 2 ^ (rate / 4 - 11) = 0 :=
  Nat.div_eq_of_lt (Nat.pow_lt_pow_right (m := 15) Nat.one_lt_two (by omega))

theorem envBase_inc (rate rateMax : Nat) (decreasing : Bool) :
    (envBase rate decreasing rateMax).2 =
      if rate < 48 then 0x8000 else if rate < 108 then 2 ^ (26 - rate / 4) else if rate = rateMax then 0 else 1 := by
  unfold envBase
  by_cases h44 : rate < 44
  · simp only [if_pos h44, if_pos (show rate < 48 by omega)]
  by_cases h48 : rate < 48
  · simp only [if_neg h44, if_pos h48]
  by_cases h108 : rate < 108
  · have hpos : 2 ^ (26 - rate / 4) ≠ 0 := by positivity
    simp only [if_neg h44, if_neg h48, if_pos h108, shiftedIncrement_of_lt (by omega : 48 ≤ rate) h108, hpos,
      false_and, if_false]
  · simp only [if_neg h44, if_neg h48, if_neg h108, shiftedIncrement_of_ge (by omega : 108 ≤ rate), true_and, ne_eq,
      ite_not]

theorem envBase_inc_le (rate rateMax : Nat) (decreasing : Bool) : (envBase rate decreasing rateMax).2 ≤ 0x8000 := by
  rw [envBase_inc]
  split_ifs with h48
  · exact le_rfl
  · exact Nat.pow_le_pow_right Nat.two_pos (show 26 - rate / 4 ≤ 15 by omega)
  · omega
  · omega

theorem envBase_step_nonpos (rate rateMax : Nat) : (envBase rate true rateMax).1 ≤ 0 := by
  have hm : -(7 - (rate % 4 : ℕ)) ≤ (0 : Int) := by omega
  rw [envBase_step]
  dsimp only
  split
  · exact mul_nonpos_of_nonpos_of_nonneg hm (by positivity)
  · exact hm

/-! ### The exponential adjustment (R154) -/

section
variable (step level : Int) (inc rate : Nat)

theorem envAdjust_linear (decreasing : Bool) : envAdjust step inc rate decreasing false level = (step, inc) := rfl

theorem envAdjust_expDecreasing : envAdjust step inc rate true true level = (asr (step * level) 15, inc) := rfl

variable {level}

theorem envAdjust_belowKnee (h : level < 0x6000) : envAdjust step inc rate false true level = (step, inc) :=
  if_neg (Int.not_le.mpr h)

variable {rate}

theorem envAdjust_quarterStep (h : 0x6000 ≤ level) (hrate : rate < 40) :
    envAdjust step inc rate false true level = (step / 4, inc) :=
  (if_pos h).trans (if_pos hrate)

theorem envAdjust_halveBoth (h : 0x6000 ≤ level) (h40 : 40 ≤ rate) (h44 : rate < 44) :
    envAdjust step inc rate false true level = (step / 2, inc / 2) :=
  (if_pos h).trans <| (if_neg (Nat.not_lt.mpr h40)).trans (if_neg (Nat.not_le.mpr h44))

theorem envAdjust_quarterInc (h : 0x6000 ≤ level) (h44 : 44 ≤ rate) :
    envAdjust step inc rate false true level = (step, inc / 4) :=
  (if_pos h).trans <| (if_neg (by omega)).trans (if_pos h44)

end

/-- The adjustment never makes the counter run faster. -/
theorem envAdjust_inc_le (step level : Int) (inc rate : Nat) (decreasing exponential : Bool) :
    (envAdjust step inc rate decreasing exponential level).2 ≤ inc := by
  match exponential, decreasing with
  | false, _ => exact le_rfl
  | true, true => exact le_rfl
  | true, false =>
    by_cases hknee : level < 0x6000
    · rw [envAdjust_belowKnee step inc rate hknee]
    rw [Int.not_lt] at hknee
    by_cases h40 : rate < 40
    · rw [envAdjust_quarterStep step inc hknee h40]
    by_cases h44 : rate < 44
    · rw [envAdjust_halveBoth step inc hknee (Nat.not_lt.mp h40) h44]
      exact Nat.div_le_self inc 2
    · rw [envAdjust_quarterInc step inc hknee (Nat.not_lt.mp h44)]
      exact Nat.div_le_self inc 4

/-- At a level of at least 0 the adjusted step of a decreasing phase still does not raise it. -/
theorem envAdjust_step_nonpos {step level : Int} (inc rate : Nat) (exponential : Bool) (hstep : step ≤ 0)
    (hlevel : 0 ≤ level) : (envAdjust step inc rate true exponential level).1 ≤ 0 := by
  cases exponential
  · exact hstep
  · exact asr_nonpos 15 (mul_nonpos_of_nonpos_of_nonneg hstep hlevel)

/-- Settles O59: the base values by the bands of R153, each mode of R154 by its own equation. -/
theorem envelopeStepAndIncrementValues : Obligations.EnvelopeStepAndIncrementValues := by
  refine ⟨fun rate rateMax decreasing => Prod.ext (envBase_step ..) (envBase_inc ..), fun step level inc rate =>
    ⟨envAdjust_linear step level inc rate, ?expDecreasing, envAdjust_belowKnee step inc rate,
      envAdjust_quarterStep step inc, envAdjust_halveBoth step inc, envAdjust_quarterInc step inc⟩⟩
  case expDecreasing => rw [envAdjust_expDecreasing, asr_15]

/-! ### The counter and the level (R155, R156) -/

theorem counterFull_iff (cnt : U16) : counterFull cnt = true ↔ 0x8000 ≤ cnt.toNat := by
  have hmsb : counterFull cnt = cnt.msb := (BitVec.msb_eq_getLsbD_last cnt).symm
  rw [hmsb, BitVec.msb_eq_decide, decide_eq_true_iff]

theorem envMove_inc_le (q : PhaseParams) (v : Voice) : (envMove q v).2 ≤ 0x8000 :=
  (envAdjust_inc_le ..).trans (envBase_inc_le ..)

theorem envMove_step_nonpos {q : PhaseParams} {v : Voice} (hdec : q.decreasing = true) (hlevel : 0 ≤ v.level.toInt) :
    (envMove q v).1 ≤ 0 := by
  rw [envMove, hdec]
  exact envAdjust_step_nonpos _ _ _ (envBase_step_nonpos ..) hlevel

section
variable (q : PhaseParams) {v : Voice} (hcnt : v.envCnt.toNat < 0x8000)
include hcnt

/-- From a counter below 0x8000 the sixteen-bit addition does not overflow (R155). -/
theorem toNat_envNext : (envNext q v).toNat = v.envCnt.toNat + (envMove q v).2 := by
  have hinc := envMove_inc_le q v
  rw [envNext, BitVec.toNat_add, BitVec.toNat_ofNat]
  omega

theorem envCount_of_lt (h : v.envCnt.toNat + (envMove q v).2 < 0x8000) :
    envCount q v = { v with envCnt := BitVec.ofNat 16 (v.envCnt.toNat + (envMove q v).2) } := by
  have hwait : ¬ counterFull (envNext q v) = true := by
    rw [counterFull_iff, toNat_envNext q hcnt]
    omega
  rw [envCount_eq, if_neg hwait, ← toNat_envNext q hcnt, BitVec.ofNat_toNat, BitVec.setWidth_eq]

theorem envCount_of_ge (h : 0x8000 ≤ v.envCnt.toNat + (envMove q v).2) :
    envCount q v = { v with envCnt := 0, level := envLevel q.decreasing v.level.toInt (envMove q v).1 } := by
  have hdue : counterFull (envNext q v) = true := by
    rw [counterFull_iff, toNat_envNext q hcnt]
    exact h
  rw [envCount_eq, if_pos hdue]

end

/-- The level of a due change in numbers (R156): sixteen bits hold it in both directions. -/
theorem toInt_envLevel_envMove (q : PhaseParams) {v : Voice} (hlevel : 0 ≤ v.level.toInt) :
    (envLevel q.decreasing v.level.toInt (envMove q v).1).toInt =
      if q.decreasing then max (v.level.toInt + (envMove q v).1) 0
      else max (-32768) (min 32767 (v.level.toInt + (envMove q v).1)) := by
  cases hdec : q.decreasing
  case false => exact (envLevel_increasing _ _).trans (sat16_eq_max_min _)
  case true =>
    have hfall := envMove_step_nonpos hdec hlevel
    have htop := toInt_i16_le v.level
    exact envLevel_decreasing (by omega)

/-- Settles O37: the sum of counter and increment fits sixteen bits, so bit 15 says on which side of 0x8000 it falls. -/
theorem envelopeCounterAndLevel : Obligations.EnvelopeCounterAndLevel := fun q _ hcnt hlevel =>
  ⟨envCount_of_lt q hcnt, fun hdue => ⟨_, envCount_of_ge q hcnt hdue, toInt_envLevel_envMove q hlevel⟩⟩

/-! ### The transitions (R157) -/

@[simp] theorem envCount_phase (q : PhaseParams) (v : Voice) : (envCount q v).phase = v.phase := by
  obtain ⟨_, _, h⟩ | ⟨_, h⟩ := envCount_cases q v <;> rw [h]

@[simp] theorem envCount_adsr1 (q : PhaseParams) (v : Voice) : (envCount q v).adsr1 = v.adsr1 := by
  obtain ⟨_, _, h⟩ | ⟨_, h⟩ := envCount_cases q v <;> rw [h]

section
variable {v : Voice}

theorem envTransition_attack (h : v.phase = .attack) :
    envTransition v = if 0x7FFF ≤ v.level.toInt then { v with phase := .decay, envCnt := 0 } else v := by
  rw [envTransition, h]

theorem envTransition_decay (h : v.phase = .decay) :
    envTransition v =
      if v.level.toInt ≤ sustainTarget v.adsr1 then { v with phase := .sustain, envCnt := 0 } else v := by
  rw [envTransition, h]

theorem envTransition_sustain (h : v.phase = .sustain) : envTransition v = v := by
  rw [envTransition, h]

theorem envTransition_release (h : v.phase = .release) :
    envTransition v = if v.level = 0 then voiceOff v else v := by
  rw [envTransition, h]

theorem envStep_of_params {q : PhaseParams} (h : phaseParams v.adsr1 v.adsr2 v.phase = some q) :
    envStep v = envTransition (envCount q v) := by
  rw [envStep, h]

/-- An idle envelope has no parameters, so its step does nothing. -/
theorem envStep_of_off (h : v.phase = .off) : envStep v = v := by
  rw [envStep, h, phaseParams]

end

/-- Settles O60: the step is the transition of the counted voice, which is still in the phase it was counted in. -/
theorem envelopeTransitionsAreExact : Obligations.EnvelopeTransitionsAreExact := by
  refine fun v => ⟨fun q hq => ?running, envStep_of_off⟩
  have hphase := envCount_phase q v
  rw [envStep_of_params hq]
  refine ⟨fun h => ?attack, fun h => ?decay, fun h => ?sustain, fun h => ?release⟩
  case attack => exact envTransition_attack (hphase.trans h)
  case decay => rw [envTransition_decay (hphase.trans h), envCount_adsr1]
  case sustain => exact envTransition_sustain (hphase.trans h)
  case release => exact envTransition_release (hphase.trans h)

end Sys2Proof.Machine
end

section
/-! PROOFS. The family 43_voice_output.md: the order of a voice's part of a tick (R180), its two multiplications (R181,
R182) and the inactive voice (R183). -/

namespace Sys2Proof.Machine

/-- The product is exact and its shift a floor (R181, R182). -/
theorem mulQ15_eq_div (a b : Int) : mulQ15 a b = a * b / 32768 := asr_15 (a * b)

theorem exec_tick (s : State) :
    exec .tick s = .next { mixTick params s with result := .tick (mixTick params s).latches } := rfl

section
variable {v : Voice}

theorem moveOn_of_active (h : (envStep v).active = true) : moveOn v = advance (envStep v) := if_pos h

theorem moveOn_of_inactive (h : (envStep v).active = false) : moveOn v = envStep v :=
  if_neg (by simp [h])

variable (p : Config.Params) (m : List Host.Cell)

theorem voiceTick_of_active (h : v.active = true) :
    voiceTick p m v =
      let w := fetchIfDue p m v
      let afterEnv := interpolate p w * w.level.toInt / 32768
      { voice := moveOn w
        left := afterEnv * w.volL.toInt / 32768
        right := afterEnv * w.volR.toInt / 32768 } := by
  simp only [voiceTick, h, if_true, mulQ15_eq_div]

theorem voiceTick_of_inactive (h : v.active = false) : voiceTick p m v = { voice := v, left := 0, right := 0 } :=
  if_neg (by simp [h])

end

/-- Settles O46: the outputs are read off the tick of an active voice, the voice afterwards off the two cases of what
follows the output. -/
theorem voiceTickOrder : Obligations.VoiceTickOrder := by
  intro p m v hactive w afterEnv
  have htick : voiceTick p m v =
      ⟨moveOn w, afterEnv * w.volL.toInt / 32768, afterEnv * w.volR.toInt / 32768⟩ :=
    voiceTick_of_active p m hactive
  rw [htick]
  exact ⟨rfl, rfl, moveOn_of_active, moveOn_of_inactive⟩

/-- Settles O47: a TICK gives each voice its own tick, and that of an inactive voice is the voice with two zeros. -/
theorem inactiveVoiceIsFrozen : Obligations.InactiveVoiceIsFrozen := by
  intro s i hidle
  have htick : voiceTick params s.mem s.voices[i] = ⟨s.voices[i], 0, 0⟩ := voiceTick_of_inactive params s.mem hidle
  have hvoice : (mixTick params s).voices[i] = s.voices[i] := by rw [mixTick_voice, htick]
  rw [htick]
  exact ⟨rfl, rfl, _, exec_tick s, hvoice⟩

end Sys2Proof.Machine
end

section
/-! PROOFS. The family 44_mixer.md: the two buses (R190 to R192), the reverb send (R193), the output stage (R195) and the
tick of the whole block (R197, R231). -/

namespace Sys2Proof.Machine

/-- Between its bounds in order, the clamp of R10 is the lattice's. -/
theorem clamp_eq_max_min (x : Int) {lo hi : Int} (h : lo ≤ hi) : clamp x lo hi = max lo (min hi x) := by
  unfold clamp
  split
  · omega
  · split <;> omega

/-! ### The output stage (R195) -/

/-- The mix of R195, scaled by the master volume, over the common denominator `2^44`. -/
def outNumerator (dry wet : I16) (wetQ15 masterQ14 : U16) : Int :=
  (dry.toInt * (0x8000 - levelOperand wetQ15) + wet.toInt * levelOperand wetQ15) * levelOperand masterQ14

theorem outStage_eq_mkRat (dry wet : I16) (wetQ15 masterQ14 : U16) :
    outStage dry wet wetQ15 masterQ14 =
      mkRat (clamp (outNumerator dry wet wetQ15 masterQ14) (-(2 ^ 44)) (2 ^ 44)) (2 ^ 44) := rfl

/-- Clamping a numerator to plus and minus its denominator clamps the fraction to plus and minus 1. -/
theorem mkRat_clamp (n : Int) {d : Nat} (hd : 0 < d) : mkRat (clamp n (-d) d) d = max (-1) (min 1 ((n : ℚ) / d)) := by
  have hd' : (0 : ℚ) < d := by exact_mod_cast hd
  calc mkRat (clamp n (-d) d) d
      = max (-d : ℚ) (min d n) / d := by
        rw [clamp_eq_max_min n (by omega), Rat.mkRat_eq_div, Int.cast_max, Int.cast_min, Int.cast_neg, Int.cast_natCast]
    _ = max (-d / d : ℚ) (min (d / d) (n / d)) := by
        rw [← max_div_div_right hd'.le, ← min_div_div_right hd'.le]
    _ = max (-1) (min 1 ((n : ℚ) / d)) := by rw [neg_div, div_self hd'.ne']

/-- The numerator over the common denominator is the formula of R195, before its clamp. -/
theorem outNumerator_div (dry wet : I16) (wetQ15 masterQ14 : U16) :
    (outNumerator dry wet wetQ15 masterQ14 : ℚ) / (2 ^ 44 : ℕ) =
      (dry.toInt * (0x8000 - levelOperand wetQ15) + wet.toInt * levelOperand wetQ15) / 0x8000 *
        (levelOperand masterQ14 / 0x4000) / 32768 := by
  simp only [outNumerator]; push_cast; ring

/-- Settles O27: the clamp on the numerator is the clamp on the fraction, and the fraction is R195's formula. -/
theorem outputStageIsExact : Obligations.OutputStageIsExact := by
  intro dry wet wq mq
  calc outStage dry wet wq mq
      = max (-1) (min 1 ((outNumerator dry wet wq mq : ℚ) / (2 ^ 44 : ℕ))) :=
        (outStage_eq_mkRat dry wet wq mq).trans (mkRat_clamp _ (Nat.two_pow_pos 44))
    _ = _ := by rw [outNumerator_div]; rfl

/-! ### The buses (R190 to R192) -/

theorem sumVoices_eq_sum (f : Voice → Int) (vs : Vector Voice 24) : sumVoices f vs = ∑ j : Fin 24, f vs[j] := by
  have hlist : vs.toList = List.ofFn fun j : Fin 24 => vs[j] := by
    refine List.ext_getElem (by rw [Vector.length_toList, List.length_ofFn]) fun k _ _ => ?_
    rw [Vector.getElem_toList, List.getElem_ofFn, Fin.getElem_fin]
  rw [sumVoices, hlist, List.map_ofFn, List.sum_ofFn]
  rfl

/-- A bus latch is the complete sum, clamped once (R192). -/
theorem toInt_satI16_sumVoices (f : Voice → Int) (vs : Vector Voice 24) :
    (satI16 (sumVoices f vs)).toInt = max (-32768) (min 32767 (∑ j : Fin 24, f vs[j])) := by
  rw [toInt_satI16, sat16_eq_max_min, sumVoices_eq_sum]

section
variable (p : Config.Params) (s : State)

theorem mixTick_dryL :
    (mixTick p s).latches.dryL = satI16 (sumVoices (fun v => (voiceTick p s.mem v).left) s.voices) := rfl

theorem mixTick_dryR :
    (mixTick p s).latches.dryR = satI16 (sumVoices (fun v => (voiceTick p s.mem v).right) s.voices) := rfl

theorem mixTick_revinL : (mixTick p s).latches.revinL = satI16 (sumVoices (sendLeft p s.mem) s.voices) := rfl

theorem mixTick_revinR : (mixTick p s).latches.revinR = satI16 (sumVoices (sendRight p s.mem) s.voices) := rfl

end

/-- Settles O45: each of the four latches is the stored clamp of one sum over the voices. -/
theorem busesAreClampedSums : Obligations.BusesAreClampedSums := by
  intro s
  refine ⟨_, exec_tick s, ?dryL, ?dryR, ?revinL, ?revinR⟩
  case dryL => rw [mixTick_dryL, toInt_satI16_sumVoices]
  case dryR => rw [mixTick_dryR, toInt_satI16_sumVoices]
  case revinL => rw [mixTick_revinL, toInt_satI16_sumVoices]; rfl
  case revinR => rw [mixTick_revinR, toInt_satI16_sumVoices]; rfl

/-! ### The tick of the whole block (R193, R197, R231) -/

section
variable (p : Config.Params) (s : State)

/-- The reverb unit as a tick feeds it: with the clamped send pair, in every tick (R193). -/
def sendReverb : WetOut := reverbTick p (mixTick p s).latches.revinL (mixTick p s).latches.revinR s.rev

theorem mixTick_rev : (mixTick p s).rev = (sendReverb p s).rev := rfl

theorem mixTick_wetL : (mixTick p s).latches.wetL = (sendReverb p s).left := rfl

theorem mixTick_wetR : (mixTick p s).latches.wetR = (sendReverb p s).right := rfl

theorem mixTick_outL : (mixTick p s).latches.outL =
    outStage (mixTick p s).latches.dryL (mixTick p s).latches.wetL s.wetQ15 s.masterQ14 := rfl

theorem mixTick_outR : (mixTick p s).latches.outR =
    outStage (mixTick p s).latches.dryR (mixTick p s).latches.wetR s.wetQ15 s.masterQ14 := rfl

theorem mixTick_revReg : (mixTick p s).rev.reg = s.rev.reg := reverbTick_reg ..

theorem mixTick_revLen : (mixTick p s).rev.len = s.rev.len := reverbTick_len ..

theorem mixTick_hostRegs (j : Fin 24) : (mixTick p s).voices[j].hostRegs = s.voices[j].hostRegs := by
  rw [mixTick_voice, voiceTick_hostRegs]

end

/-- Settles O44: the tick's effect and its frame, one law of `mixTick` for each field. -/
theorem tickResultAndFrame : Obligations.TickResultAndFrame := by
  intro s
  have hmem (a : Nat) : memByte (mixTick params s).mem a = memByte s.mem a := by rw [mixTick_mem]
  exact ⟨_, exec_tick s, rfl, fun j => ⟨mixTick_voice params s j, mixTick_hostRegs params s j⟩, hmem,
    mixTick_wetQ15 params s, mixTick_masterQ14 params s, mixTick_revReg params s, mixTick_revLen params s,
    mixTick_port params s, mixTick_rev params s, mixTick_wetL params s, mixTick_wetR params s,
    mixTick_outL params s, mixTick_outR params s⟩

end Sys2Proof.Machine
end

section
/-! PROOFS. The family 46_commands.md: keying (R233 to R235), the registers of a voice (R236 to R242), the reverb and
output-stage commands (R243 to R247), the host's memory port (R248 to R251) and `NOP` (R232). -/

namespace Sys2Proof.Machine

/-! ### What the commands do -/

section
variable (idx : Byte) (d : U16) (s : State)

theorem exec_nop : exec .nop s = done s .none := rfl

theorem exec_keyOn : exec (.keyOn idx) s = done (updVoice s idx keyOnVoice) .none := rfl

theorem exec_keyOff : exec (.keyOff idx) s = done (updVoice s idx keyOffVoice) .none := rfl

theorem exec_allKeyOff : exec .allKeyOff s = done { s with voices := mapVoices keyOffVoice s.voices } .none := rfl

theorem exec_revWrite : exec (.revWrite idx d) s = done { s with rev := writeReverb params idx d s.rev } .none := rfl

theorem exec_revPreset : exec (.revPreset idx) s = done { s with rev := choosePreset params idx s.rev } .none := rfl

theorem execWith_revPreset (p : Config.Params) :
    execWith p (.revPreset idx) s = done { s with rev := choosePreset p idx s.rev } .none := rfl

theorem exec_revClear : exec .revClear s = done { s with rev := clearReverb s.rev } .none := rfl

theorem exec_setWet : exec (.setWet d) s = done { s with wetQ15 := d } .none := rfl

theorem exec_setMaster : exec (.setMaster d) s = done { s with masterQ14 := d } .none := rfl

end

/-! ### A command on one voice -/

theorem names_ofNat {n : Nat} (h : n < 24) : Names (BitVec.ofNat 8 n) ⟨n, h⟩ :=
  Nat.mod_eq_of_lt (show n < 256 by omega)

theorem updVoice_of_names {idx : Byte} {i : Fin 24} (s : State) (f : Voice → Voice) (h : Names idx i) :
    updVoice s idx f = setVoice s i f := by
  have hlt : idx.toNat < NVOICES := lt_of_eq_of_lt h i.isLt
  have hi : ⟨idx.toNat, hlt⟩ = i := Fin.ext h
  rw [updVoice, dif_pos hlt, hi]

theorem setVoice_voice_self (s : State) (i : Fin 24) (f : Voice → Voice) :
    (setVoice s i f).voices[i] = f s.voices[i] :=
  (setVoice_voice s i f i).trans (if_pos rfl)

theorem frameVoice_setVoice (s : State) (i : Fin 24) (f : Voice → Voice) (r : Result) :
    FrameVoice s { setVoice s i f with result := r } i where
  others j hj := (setVoice_voice s i f j).trans (if_neg hj.symm)
  mem _ := rfl
  wetQ15 := rfl
  masterQ14 := rfl
  latches := rfl
  rev := rfl
  port := rfl

/-- Every command on one voice completes, updates the voice it names and keeps the frame of that voice. -/
theorem done_updVoice {idx : Byte} {i : Fin 24} (s : State) (f : Voice → Voice) (h : Names idx i) :
    ∃ t, done (updVoice s idx f) .none = .next t ∧ FrameVoice s t i ∧ t.voices[i] = f s.voices[i] := by
  rw [updVoice_of_names s f h]
  exact ⟨_, rfl, frameVoice_setVoice s i f .none, setVoice_voice_self s i f⟩

/-! ### Keying (R233 to R235) -/

section
variable {v : Voice}

/-- `KEY_OFF` ends the three phases in which a key is held (R234). -/
theorem keyOffVoice_of_held (hactive : v.active = true)
    (hphase : v.phase = .attack ∨ v.phase = .decay ∨ v.phase = .sustain) :
    keyOffVoice v = { v with phase := .release, envCnt := 0 } := by
  unfold keyOffVoice
  obtain h | h | h := hphase <;> rw [hactive, h]

theorem keyOffVoice_of_inactive (h : v.active = false) : keyOffVoice v = v := by
  unfold keyOffVoice
  rw [h]

/-- A voice already in Release, or Off, has no key to release, active or not. -/
theorem keyOffVoice_of_released (h : v.phase = .release ∨ v.phase = .off) : keyOffVoice v = v := by
  unfold keyOffVoice
  obtain h | h := h <;> rw [h] <;> cases v.active <;> rfl

end

/-- Settles O15: `KEY_OFF` is `keyOffVoice` on the voice named; the phase decides what that does. -/
theorem keyOffReleases : Obligations.KeyOffReleases := by
  refine ⟨fun s idx h => done_unchanged (updVoice_ignored keyOffVoice h), fun s i idx hnames => ?_⟩
  obtain ⟨t, ht, hframe, hvoice⟩ := done_updVoice s keyOffVoice hnames
  refine ⟨t, (exec_keyOff idx s).trans ht, hframe, fun hactive hphase => ?held, fun hidle => ?idle⟩
  case held => rw [hvoice, keyOffVoice_of_held hactive hphase]
  case idle =>
    rw [hvoice]
    exact hidle.elim keyOffVoice_of_inactive keyOffVoice_of_released

/-- The voices after the `KEY_OFF` of each voice below `n`. -/
def keyOffBelow (n : Nat) (vs : Vector Voice 24) : Vector Voice 24 :=
  Vector.ofFn fun j => if j.val < n then keyOffVoice vs[j] else vs[j]

section
variable (vs : Vector Voice 24)

theorem getElem_keyOffBelow (n : Nat) {j : Nat} (hj : j < 24) :
    (keyOffBelow n vs)[j] = if j < n then keyOffVoice vs[j] else vs[j] := by
  simp [keyOffBelow]

theorem keyOffBelow_zero : keyOffBelow 0 vs = vs := by
  ext1 j hj
  exact (getElem_keyOffBelow vs 0 hj).trans (if_neg (Nat.not_lt_zero j))

theorem keyOffBelow_all : keyOffBelow 24 vs = mapVoices keyOffVoice vs := by
  ext1 j hj
  calc (keyOffBelow 24 vs)[j]
      = keyOffVoice vs[j] := (getElem_keyOffBelow vs 24 hj).trans (if_pos hj)
    _ = (mapVoices keyOffVoice vs)[j] := (mapVoices_get keyOffVoice vs ⟨j, hj⟩).symm

/-- Voice `n` is still as it was when the voices below it have been released. -/
theorem keyOffBelow_succ {n : Nat} (h : n < 24) :
    (keyOffBelow n vs).set n (keyOffVoice (keyOffBelow n vs)[n]) = keyOffBelow (n + 1) vs := by
  ext1 j hj
  simp only [Vector.getElem_set, getElem_keyOffBelow, lt_irrefl, if_false]
  obtain hlt | rfl | hgt := Nat.lt_trichotomy j n
  · rw [if_neg hlt.ne', if_pos hlt, if_pos (Nat.lt_succ_of_lt hlt)]
  · rw [if_pos rfl, if_pos (Nat.lt_succ_self j)]
  · rw [if_neg hgt.ne, if_neg (Nat.lt_asymm hgt), if_neg (Nat.not_lt.mpr hgt)]

variable {vs}

/-- The `KEY_OFF` of voice `n` after those of the voices below it. -/
theorem exec_keyOff_keyOffBelow {s : State} {n : Nat} (h : n < 24) (hvs : s.voices = keyOffBelow n vs) :
    exec (.keyOff (BitVec.ofNat 8 n)) s = .next { s with voices := keyOffBelow (n + 1) vs, result := .none } := by
  have hset : (setVoice s ⟨n, h⟩ keyOffVoice).voices = keyOffBelow (n + 1) vs := by
    rw [← keyOffBelow_succ vs h, ← hvs]
    rfl
  rw [exec_keyOff, updVoice_of_names _ _ (names_ofNat h), ← hset]
  rfl

end

theorem foldl_keyOff_range (s : State) {n : Nat} (h : n < 24) :
    (List.range (n + 1)).foldl (fun o k => andThen o (.keyOff (BitVec.ofNat 8 k))) (.next s) =
      .next { s with voices := keyOffBelow (n + 1) s.voices, result := .none } := by
  induction n with
  | zero => exact exec_keyOff_keyOffBelow h (keyOffBelow_zero s.voices).symm
  | succ n ih =>
    rw [List.range_succ, List.foldl_append, ih (by omega)]
    exact exec_keyOff_keyOffBelow h rfl

/-- Settles O16: after all 24 voices the fold has updated every voice. -/
theorem allKeyOffIsKeyOffForEveryVoice : Obligations.AllKeyOffIsKeyOffForEveryVoice := by
  intro s
  rw [foldl_keyOff_range s (show 23 < 24 by decide), keyOffBelow_all]
  exact exec_allKeyOff s

theorem toNat_startAddr (b : U16) : (startAddr b).toNat = b.toNat * 16 % 524288 := BitVec.toNat_ofNat ..

/-- Settles O14: `KEY_ON` is `keyOnVoice` on the voice named, read off field by field. -/
theorem keyOnArmsItsVoice : Obligations.KeyOnArmsItsVoice := by
  refine ⟨fun s idx h => done_unchanged (updVoice_ignored keyOnVoice h), fun s i idx hnames => ?_⟩
  obtain ⟨t, ht, hframe, hvoice⟩ := done_updVoice s keyOnVoice hnames
  refine ⟨t, (exec_keyOn idx s).trans ht, hframe, ?_⟩
  rw [hvoice]
  exact ⟨rfl, rfl, rfl, rfl, rfl, toNat_startAddr _, rfl, rfl, rfl, fun k => Vector.getElem_replicate k.isLt,
    fun k => Vector.getElem_replicate k.isLt, rfl, rfl, rfl, rfl⟩

/-! ### The registers of a voice (R236 to R242) -/

theorem dataBit0_eq (d : U16) : dataBit0 d = decide (d.toNat % 2 = 1) := by
  rw [dataBit0, BitVec.getLsbD, Nat.testBit_zero]

/-- Settles O12: each of the seven arms is a command on one voice, with an update of its own. -/
theorem voiceRegisterWrites : Obligations.VoiceRegisterWrites := by
  intro s i idx d hnames
  refine ⟨done_updVoice s _ hnames, done_updVoice s _ hnames, done_updVoice s _ hnames, done_updVoice s _ hnames,
    done_updVoice s _ hnames, done_updVoice s _ hnames, ?reverbEn⟩
  case reverbEn =>
    rw [← dataBit0_eq]
    exact done_updVoice s _ hnames

/-! ### The host's memory port (R248 to R251) -/

theorem dataLow_eq_ofNat (d : U16) : dataLow d = BitVec.ofNat 8 d.toNat :=
  congrArg (BitVec.ofNat 8) (Nat.shiftRight_zero (n := d.toNat))

theorem dataHigh_eq_ofNat (d : U16) : dataHigh d = BitVec.ofNat 8 (d.toNat / 256) :=
  congrArg (BitVec.ofNat 8) (Nat.shiftRight_eq_div_pow d.toNat 8)

/-- What any byte reads after a half-word store: its two bytes are different ones, wherever it wraps (R61, R249). -/
theorem memByte_memSetHalf {m : List Host.Cell} (h : Memory.wf m = true) (a b : Nat) (x : U16) :
    memByte (memSetHalf m a x) b =
      if b % RAM_BYTES = a % RAM_BYTES then dataLow x
      else if b % RAM_BYTES = (a + 1) % RAM_BYTES then dataHigh x
      else memByte m b := by
  have hdistinct : a % RAM_BYTES ≠ (a + 1) % RAM_BYTES := by
    unfold RAM_BYTES
    omega
  rw [memSetHalf, memByte_memSetByte (wf_memSetByte a _ h), memByte_memSetByte h]
  by_cases hlow : b % RAM_BYTES = a % RAM_BYTES
  · rw [if_neg (hlow ▸ hdistinct), if_pos hlow, if_pos hlow]
  · rw [if_neg hlow, if_neg hlow]

theorem toNat_memHalf (m : List Host.Cell) (a : Nat) :
    (memHalf m a).toNat = (memByte m (a + 1)).toNat * 256 + (memByte m a).toNat := by
  rw [memHalf, BitVec.toNat_append, ← Nat.shiftLeft_add_eq_or_of_lt (memByte m a).isLt, Nat.shiftLeft_eq]

theorem done_mem (s : State) (m : List Host.Cell) :
    ∃ t, done { s with mem := m } .none = .next t ∧ FrameMem s t ∧ t.mem = m :=
  ⟨_, rfl, ⟨fun _ => rfl, rfl, rfl, rfl, rfl, rfl⟩, rfl⟩

/-- Settles O18: what each store makes of the memory, read back byte by byte. -/
theorem storesWriteTheirBytes : Obligations.StoresWriteTheirBytes := by
  refine fun s addr d hwf => ⟨?wr8, ?wr16⟩
  case wr8 =>
    obtain ⟨t, ht, hframe, hmem⟩ := done_mem s (memSetByte s.mem addr.toNat (dataLow d))
    refine ⟨t, (exec_memWr8 addr d s).trans ht, hframe, fun b => ?_⟩
    rw [hmem, ← dataLow_eq_ofNat]
    exact memByte_memSetByte hwf addr.toNat b (dataLow d)
  case wr16 =>
    obtain ⟨t, ht, hframe, hmem⟩ := done_mem s (memSetHalf s.mem addr.toNat d)
    refine ⟨t, (exec_memWr16 addr d s).trans ht, hframe, fun b => ?_⟩
    rw [hmem, ← dataLow_eq_ofNat, ← dataHigh_eq_ofNat]
    exact memByte_memSetHalf hwf addr.toNat b d

/-- Settles O19: the reads end on the state they began with, and an address reads as its residue does. -/
theorem readsReturnTheirBytes : Obligations.ReadsReturnTheirBytes := by
  intro s addr
  have hmod (a : Nat) : memByte s.mem (a % 524288) = memByte s.mem a := memByte_mod s.mem a
  refine ⟨?rd8, memHalf s.mem addr.toNat, exec_memRd16 addr s, ?rd16⟩
  case rd8 => rw [hmod]; exact exec_memRd8 addr s
  case rd16 => rw [hmod, hmod]; exact toNat_memHalf s.mem addr.toNat

/-! ### The reverb registers (R243 to R245) -/

/-- Every command on the reverb unit completes and keeps everything outside the unit. -/
theorem done_rev (s : State) (r : Reverb) :
    ∃ t, done { s with rev := r } .none = .next t ∧ FrameRev s t ∧ t.rev = r :=
  ⟨_, rfl, ⟨fun _ => rfl, fun _ => rfl, rfl, rfl, rfl, rfl⟩, rfl⟩

section
variable (p : Config.Params) {idx : Byte} (d : U16) (r : Reverb)

theorem writeReverb_register {k : Fin 32} (h : idx.toNat = k.val) :
    writeReverb p idx d r = { r with reg := r.reg.set k.val d } := by
  unfold writeReverb
  simp only [h, k.isLt, dif_pos]

theorem writeReverb_length (h : idx.toNat = 32) :
    writeReverb p idx d r = setRevLen r (min (d.toNat * 4) p.revbufMax) := by
  unfold writeReverb
  rw [dif_neg (by omega), if_pos h]
  rfl

theorem choosePreset_of_lt (h : idx.toNat < p.reverbPresets.length) :
    choosePreset p idx r =
      setRevLen { r with reg := p.reverbPresets[idx.toNat].reg } (min p.reverbPresets[idx.toNat].len p.revbufMax) := by
  unfold choosePreset
  rw [List.getElem?_eq_getElem h]
  rfl

end

/-- Settles O23: the three ranges of the index are the three cases of `writeReverb`. -/
theorem revWriteSetsARegisterOrTheLength : Obligations.RevWriteSetsARegisterOrTheLength := by
  intro s idx d
  obtain ⟨t, ht, hframe, hrev⟩ := done_rev s (writeReverb params idx d s.rev)
  have hexec : exec (.revWrite idx d) s = .next t := (exec_revWrite idx d s).trans ht
  refine ⟨fun k hk => ⟨t, hexec, hframe, ?register⟩, fun h32 => ⟨t, hexec, hframe, ?length⟩,
    fun h33 => ⟨t, hexec, hframe, ?ignored⟩⟩
  case register =>
    rw [hrev, writeReverb_register params d s.rev hk]
    refine ⟨Vector.getElem_set_self k.isLt, fun j hj => ?_, rfl⟩
    exact Vector.getElem_set_ne k.isLt j.isLt (Fin.val_ne_of_ne hj.symm)
  case length =>
    rw [hrev, writeReverb_length params d s.rev h32]
    exact ⟨rfl, rfl, rfl⟩
  case ignored => rw [hrev, writeReverb_ignored params d s.rev h33]

/-- Settles O24: the default set gives `choosePreset` itself; with any set the index decides between loading and
ignoring. -/
theorem revPresetLoadsItsRecord : Obligations.RevPresetLoadsItsRecord := by
  refine ⟨fun s idx => ?default, fun p s idx => ?_⟩
  case default => rw [exec_revPreset]; exact done_rev s (choosePreset params idx s.rev)
  obtain ⟨t, ht, hframe, hrev⟩ := done_rev s (choosePreset p idx s.rev)
  refine ⟨t, (execWith_revPreset idx s p).trans ht, hframe, fun hin => ?loaded, fun hout => ?ignored⟩
  case loaded =>
    rw [hrev, choosePreset_of_lt p s.rev hin]
    exact ⟨rfl, rfl, rfl, rfl⟩
  case ignored => rw [hrev, choosePreset_ignored s.rev hout]

/-- Settles O25: the cleared unit, read off line by line. -/
theorem revClearZeroesTheDelayLines : Obligations.RevClearZeroesTheDelayLines := by
  intro s
  obtain ⟨t, ht, hframe, hrev⟩ := done_rev s (clearReverb s.rev)
  refine ⟨t, (exec_revClear s).trans ht, hframe, ?_⟩
  rw [hrev]
  exact ⟨fun _ => rfl, fun k => ⟨Vector.getElem_replicate k.isLt, Vector.getElem_replicate k.isLt⟩,
    fun k => ⟨Vector.getElem_replicate k.isLt, Vector.getElem_replicate k.isLt⟩, rfl, rfl, rfl, rfl⟩

/-! ### `NOP` and the output registers (R232, R246, R247) -/

/-- Settles O26: each of the three is one `done`, on the state itself or with its register written. -/
theorem nopAndOutputRegisters : Obligations.NopAndOutputRegisters := fun s d =>
  ⟨exec_nop s, ⟨_, exec_setWet d s, rfl⟩, ⟨_, exec_setMaster d s, rfl⟩⟩

end Sys2Proof.Machine
end

section
/-! PROOFS. The family 70_reset_and_hazards.md: the state after reset (R320). -/

namespace Sys2Proof.Machine

/-- All 24 voices start alike. -/
theorem State.reset_voice (j : Fin 24) : State.reset.voices[j] = Voice.reset := Vector.getElem_replicate j.isLt

/-- A sparse memory without entries holds its reset contents everywhere. -/
theorem cellRead_nil {n : Nat} (a : Nat) : cellRead ([] : List (Nat × BitVec n)) a = 0 := rfl

/-- Settles O9: every voice is `Voice.reset`, both memories have no entries, every array is a `replicate` of 0, and each
scalar element is read off its record. -/
theorem resetValues : Obligations.ResetValues := by
  refine ⟨fun j => ?voice, fun a => ?sampleMemory, rfl, rfl, rfl, rfl, fun k => ?reverbRegister,
    fun a => ?reverbBuffer, rfl, rfl, fun k => ?inputHistory, fun k => ?outputHistory⟩
  case voice =>
    rw [State.reset_voice j]
    exact ⟨rfl, rfl, rfl, rfl, rfl, rfl, rfl, rfl, rfl, rfl, rfl, fun k => Vector.getElem_replicate k.isLt,
      fun k => Vector.getElem_replicate k.isLt, rfl, rfl⟩
  case sampleMemory => exact cellRead_nil (a % RAM_BYTES)
  case reverbRegister => exact Vector.getElem_replicate k.isLt
  case reverbBuffer => exact cellRead_nil a
  case inputHistory => exact ⟨Vector.getElem_replicate k.isLt, Vector.getElem_replicate k.isLt⟩
  case outputHistory => exact ⟨Vector.getElem_replicate k.isLt, Vector.getElem_replicate k.isLt⟩

end Sys2Proof.Machine
end

section
/-! PROOFS. The encoding as a whole: the decoder undoes the encoder, and the encoder the decoder (R82, R84, R87 to R89,
R92, R94). -/

namespace Sys2Proof

/-! ### Command words (R92, R94) -/

/-- A command word decodes by its opcode, to its own fields. -/
theorem decode_encode_of_cmd {i : Instr} {w : CmdWord} (h : encode i = .cmd w) : decode (encode i) = .ok i := by
  cases i <;> cases h
  all_goals
    simp only [encode, decode, decodeCmd, cmdOp_cmdWord, cmdIdx_cmdWord, cmdData_cmdWord, cmdAddr_cmdWord]
    rfl

/-- What a command word decodes to is written back as the word with its unused fields cleared (R97). -/
theorem encode_of_decodeCmd {i : Instr} {w : CmdWord} (h : decodeCmd w = .ok i) : encode i = .cmd (clearUnused w) := by
  unfold decodeCmd at h
  split at h
  case h_22 => cases h
  all_goals
    next hop =>
      cases h
      have hword : cmdOp w = BitVec.ofNat 8 (cmdOp w).toNat := by simp
      rw [hop] at hword
      rw [clearUnused, hword]
      rfl

/-! ### Header bytes (R82) -/

/-- The header word with `filter_raw` as an operand, where the opcode table has a row for each of its eight values. -/
def headerInstr (filter : BitVec 3) (lane : Fin 24) (bit7 : Bool) (shift : BitVec 4) : Instr :=
  match filter.toNat with
  | 0 => .adpcmHdrF0 lane bit7 shift
  | 1 => .adpcmHdrF1 lane bit7 shift
  | 2 => .adpcmHdrF2 lane bit7 shift
  | 3 => .adpcmHdrF3 lane bit7 shift
  | 4 => .adpcmHdrF4 lane bit7 shift
  | 5 => .adpcmHdrF5 lane bit7 shift
  | 6 => .adpcmHdrF6 lane bit7 shift
  | _ => .adpcmHdrF7 lane bit7 shift

theorem filter_cases (f : BitVec 3) : f = 0 ∨ f = 1 ∨ f = 2 ∨ f = 3 ∨ f = 4 ∨ f = 5 ∨ f = 6 ∨ f = 7 := by
  revert f; decide

theorem decodeHeader_eq_headerInstr (lane : Fin 24) (b : Byte) :
    decodeHeader lane b = headerInstr (headerFilter b) lane (b.getLsbD 7) (headerShift b) := rfl

theorem decodeHeader_headerByte (lane : Fin 24) (b : Bool) (f : BitVec 3) (s : BitVec 4) :
    decodeHeader lane (headerByte b f s) = headerInstr f lane b s := by
  rw [decodeHeader_eq_headerInstr, headerFilter_headerByte, headerShift_headerByte, bit7_headerByte]

theorem encode_headerInstr (f : BitVec 3) (lane : Fin 24) (b : Bool) (s : BitVec 4) :
    encode (headerInstr f lane b s) = .hdr lane (headerByte b f s) := by
  obtain rfl | rfl | rfl | rfl | rfl | rfl | rfl | rfl := filter_cases f <;> rfl

theorem headerByte_fields : ∀ b : Byte, headerByte (b.getLsbD 7) (headerFilter b) (headerShift b) = b := by
  decide

/-! ### Flags bytes (R84) -/

/-- The flags word with its three flags as operands, where the opcode table has a row for each effect of bits 1:0. -/
def flagsInstr (lane : Fin 24) (ignored : BitVec 5) (loopStart loopRepeat loopEnd : Bool) : Instr :=
  match loopEnd, loopRepeat with
  | false, rep => .adpcmFlagsContinue lane ignored loopStart rep
  | true, true => .adpcmFlagsLoop lane ignored loopStart
  | true, false => .adpcmFlagsStop lane ignored loopStart

theorem decodeFlags_eq_flagsInstr (lane : Fin 24) (b : Byte) :
    decodeFlags lane b = flagsInstr lane (b.extractLsb' 3 5) (b.getLsbD 2) (b.getLsbD 1) (b.getLsbD 0) := by
  unfold decodeFlags flagsInstr
  cases b.getLsbD 0 <;> cases b.getLsbD 1 <;> rfl

theorem decodeFlags_flagsByte (lane : Fin 24) (g : BitVec 5) (s r e : Bool) :
    decodeFlags lane (flagsByte g s r e) = flagsInstr lane g s r e := by
  obtain ⟨hend, hrep, hstart⟩ := bits_flagsByte g s r e
  rw [decodeFlags_eq_flagsInstr, ignored_flagsByte, hend, hrep, hstart]

theorem encode_flagsInstr (lane : Fin 24) (g : BitVec 5) (s r e : Bool) :
    encode (flagsInstr lane g s r e) = .flags lane (flagsByte g s r e) := by
  cases e <;> cases r <;> rfl

theorem flagsByte_fields : ∀ b : Byte,
    flagsByte (b.extractLsb' 3 5) (b.getLsbD 2) (b.getLsbD 1) (b.getLsbD 0) = b := by
  decide

/-! ### Envelope words (R88, R89) -/

/-- A field is known by its bits in the word. -/
theorem extractLsb'_eq_of_getLsbD {w : U16} {start len : Nat} {x : BitVec len}
    (h : ∀ i, i < len → w.getLsbD (start + i) = x.getLsbD i) : w.extractLsb' start len = x := by
  refine BitVec.eq_of_getLsbD_eq fun i hi => ?_
  rw [BitVec.getLsbD_extractLsb', decide_eq_true hi, Bool.true_and, h i hi]

/-- Every bit of an assembled ADSR1, as a bit of one of its fields. -/
theorem getLsbD_packAdsr1 (ae : Bool) (ash : BitVec 5) (ast : BitVec 2) (dsh sl : BitVec 4) (i : Nat) :
    (packAdsr1 ae ash ast dsh sl).getLsbD i =
      if i < 4 then sl.getLsbD i else if i < 8 then dsh.getLsbD (i - 4) else if i < 10 then ast.getLsbD (i - 8)
      else if i < 15 then ash.getLsbD (i - 10) else (BitVec.ofBool ae).getLsbD (i - 15) := by
  simp only [packAdsr1, BitVec.getLsbD_append, Nat.sub_sub]
  split_ifs <;> first | rfl | omega

/-- Every bit of an assembled ADSR2, as a bit of one of its fields. -/
theorem getLsbD_packAdsr2 (se sd u : Bool) (ssh : BitVec 5) (sst : BitVec 2) (re : Bool) (rsh : BitVec 5) (i : Nat) :
    (packAdsr2 se sd u ssh sst re rsh).getLsbD i =
      if i < 5 then rsh.getLsbD i else if i < 6 then (BitVec.ofBool re).getLsbD (i - 5)
      else if i < 8 then sst.getLsbD (i - 6) else if i < 13 then ssh.getLsbD (i - 8)
      else if i < 14 then (BitVec.ofBool u).getLsbD (i - 13) else if i < 15 then (BitVec.ofBool sd).getLsbD (i - 14)
      else (BitVec.ofBool se).getLsbD (i - 15) := by
  simp only [packAdsr2, BitVec.getLsbD_append, Nat.sub_sub]
  split_ifs <;> first | rfl | omega

/-- Every field of ADSR1 is read back from the assembled word (R88). -/
theorem fields_packAdsr1 (ae : Bool) (ash : BitVec 5) (ast : BitVec 2) (dsh sl : BitVec 4) :
    let w := packAdsr1 ae ash ast dsh sl
    attackExp w = ae ∧ attackShift w = ash ∧ attackStep w = ast ∧ decayShift w = dsh ∧ sustainLevel w = sl := by
  have hbit := getLsbD_packAdsr1 ae ash ast dsh sl
  refine ⟨(hbit 15).trans (by simp), ?_, ?_, ?_, ?_⟩
  all_goals
    refine extractLsb'_eq_of_getLsbD fun i hi => ?_
    rw [hbit]
    split_ifs <;> first | omega | (congr 1; omega)

theorem fields_packAdsr2 (se sd u : Bool) (ssh : BitVec 5) (sst : BitVec 2) (re : Bool) (rsh : BitVec 5) :
    let w := packAdsr2 se sd u ssh sst re rsh
    sustainExp w = se ∧ sustainDec w = sd ∧ adsr2Unused w = u ∧ sustainShift w = ssh ∧ sustainStep w = sst ∧
      releaseExp w = re ∧ releaseShift w = rsh := by
  have hbit := getLsbD_packAdsr2 se sd u ssh sst re rsh
  refine ⟨(hbit 15).trans (by simp), (hbit 14).trans (by simp), (hbit 13).trans (by simp), ?_, ?_,
    (hbit 5).trans (by simp), ?_⟩
  all_goals
    refine extractLsb'_eq_of_getLsbD fun i hi => ?_
    rw [hbit]
    split_ifs <;> first | omega | (congr 1; omega)

/-- A single bit is the field of width 1 that it is. -/
theorem ofBool_getLsbD (w : U16) (k : Nat) : BitVec.ofBool (w.getLsbD k) = w.extractLsb' k 1 := by
  symm
  refine extractLsb'_eq_of_getLsbD fun i hi => ?_
  obtain rfl : i = 0 := by omega
  simp

/-- A bit of a field, by its place in the word. -/
theorem getLsbD_extractLsb'_sub {w : U16} {start len i : Nat} (h1 : start ≤ i) (h2 : i < start + len) :
    (w.extractLsb' start len).getLsbD (i - start) = w.getLsbD i := by
  rw [BitVec.getLsbD_extractLsb', decide_eq_true (by omega), Bool.true_and, Nat.add_sub_cancel' h1]

theorem packAdsr1_fields (w : U16) :
    packAdsr1 (attackExp w) (attackShift w) (attackStep w) (decayShift w) (sustainLevel w) = w := by
  refine BitVec.eq_of_getLsbD_eq fun i hi => ?_
  simp only [getLsbD_packAdsr1, attackExp, attackShift, attackStep, decayShift, sustainLevel, ofBool_getLsbD]
  split_ifs
  case pos => exact getLsbD_extractLsb'_sub (start := 0) (by omega) (by omega)
  all_goals exact getLsbD_extractLsb'_sub (by omega) (by omega)

theorem packAdsr2_fields (w : U16) :
    packAdsr2 (sustainExp w) (sustainDec w) (adsr2Unused w) (sustainShift w) (sustainStep w) (releaseExp w)
      (releaseShift w) = w := by
  refine BitVec.eq_of_getLsbD_eq fun i hi => ?_
  simp only [getLsbD_packAdsr2, sustainExp, sustainDec, adsr2Unused, sustainShift, sustainStep, releaseExp,
    releaseShift, ofBool_getLsbD]
  split_ifs
  case pos => exact getLsbD_extractLsb'_sub (start := 0) (by omega) (by omega)
  all_goals exact getLsbD_extractLsb'_sub (by omega) (by omega)

theorem getLsbD_unusedMask : ∀ i, i < 16 → (0xDFFF : U16).getLsbD i = decide (i ≠ 13) := by decide

/-- Bit 13 of ADSR2 is its own mask: packing it as 0 clears that bit and no other. -/
theorem packAdsr2_false (se sd u : Bool) (ssh : BitVec 5) (sst : BitVec 2) (re : Bool) (rsh : BitVec 5) :
    packAdsr2 se sd false ssh sst re rsh = packAdsr2 se sd u ssh sst re rsh &&& 0xDFFF := by
  refine BitVec.eq_of_getLsbD_eq fun i hi => ?_
  rw [BitVec.getLsbD_and, getLsbD_unusedMask i hi, getLsbD_packAdsr2, getLsbD_packAdsr2]
  obtain rfl | hne := eq_or_ne i 13
  · simp
  · rw [decide_eq_true hne, Bool.and_true]
    split_ifs <;> first | rfl | omega

/-! ### The two directions -/

/-- Settles O1: the decoder reads back from each of the five formats what the encoder wrote into it. -/
theorem decodeOfEncode : Obligations.DecodeOfEncode := by
  intro i
  cases i
  case adsr1Word lane ae ash ast dsh sl =>
    obtain ⟨h1, h2, h3, h4, h5⟩ := fields_packAdsr1 ae ash ast dsh sl
    simp only [encode, decode, decodeAdsr1, h1, h2, h3, h4, h5]
  case adsr2Word lane se sd u ssh sst re rsh =>
    obtain ⟨h1, h2, h3, h4, h5, h6, h7⟩ := fields_packAdsr2 se sd u ssh sst re rsh
    simp only [encode, decode, decodeAdsr2, h1, h2, h3, h4, h5, h6, h7]
  case adpcmFlagsContinue | adpcmFlagsLoop | adpcmFlagsStop =>
    exact congrArg Except.ok (decodeFlags_flagsByte ..)
  case adpcmHdrF0 | adpcmHdrF1 | adpcmHdrF2 | adpcmHdrF3 | adpcmHdrF4 | adpcmHdrF5 | adpcmHdrF6 | adpcmHdrF7 =>
    exact congrArg Except.ok (decodeHeader_headerByte ..)
  all_goals exact decode_encode_of_cmd rfl

theorem unpackAdsr_packAdsr (a : AdsrParams) : unpackAdsr (packAdsr a).1 (packAdsr a).2 = a := by
  obtain ⟨h1, h2, h3, h4, h5⟩ :=
    fields_packAdsr1 a.attackExp a.attackShift a.attackStep a.decayShift a.sustainLevel
  obtain ⟨k1, k2, -, k4, k5, k6, k7⟩ :=
    fields_packAdsr2 a.sustainExp a.sustainDec false a.sustainShift a.sustainStep a.releaseExp a.releaseShift
  simp only [unpackAdsr, packAdsr, h1, h2, h3, h4, h5, k1, k2, k4, k5, k6, k7]

theorem packAdsr_unpackAdsr (w1 w2 : U16) : packAdsr (unpackAdsr w1 w2) = (w1, w2 &&& 0xDFFF) := by
  refine Prod.ext (packAdsr1_fields w1) ?_
  calc (packAdsr (unpackAdsr w1 w2)).2
      = packAdsr2 (sustainExp w2) (sustainDec w2) (adsr2Unused w2) (sustainShift w2) (sustainStep w2)
          (releaseExp w2) (releaseShift w2) &&& 0xDFFF := packAdsr2_false ..
    _ = w2 &&& 0xDFFF := by rw [packAdsr2_fields]

/-- Settles O2: a byte or an envelope word is put together again from its fields; a command word comes back with its
unused fields cleared, which the decoder does not see. -/
theorem encodeOfDecode : Obligations.EncodeOfDecode := by
  refine ⟨fun lane b i h => ?header, fun lane b i h => ?flags, fun lane w i h => ?adsr1, fun lane w i h => ?adsr2,
    fun w i h => ?command, unpackAdsr_packAdsr, packAdsr_unpackAdsr⟩
  case header =>
    cases h
    rw [decodeHeader_eq_headerInstr, encode_headerInstr, headerByte_fields]
  case flags =>
    cases h
    rw [decodeFlags_eq_flagsInstr, encode_flagsInstr, flagsByte_fields]
  case adsr1 => cases h; exact congrArg (Item.adsr1 lane) (packAdsr1_fields w)
  case adsr2 => cases h; exact congrArg (Item.adsr2 lane) (packAdsr2_fields w)
  case command =>
    exact ⟨clearUnused w, encode_of_decodeCmd h, cmdOp_clearUnused w, (decodeCmd_clearUnused w).trans h⟩

/-- Settles O6: the seven words by evaluation. -/
theorem wordsOfTheSpecDecode : Obligations.WordsOfTheSpecDecode := by
  unfold Obligations.WordsOfTheSpecDecode
  decide

end Sys2Proof
end

section
/-! PROOFS. What every instruction and every step can do: completion (R252), the step's three outcomes (R95, R230,
R300), and who writes each part of the state. -/

namespace Sys2Proof.Machine

/-! ### Every instruction completes (R252) -/

/-- Each arm ends in `done`: some state, some result. -/
theorem execWith_eq_done (p : Config.Params) (i : Instr) (s : State) : ∃ t r, execWith p i s = done t r := by
  cases i <;> exact ⟨_, _, rfl⟩

theorem completes_execWith (p : Config.Params) (i : Instr) (s : State) : Completes (execWith p i s) := by
  obtain ⟨t, r, h⟩ := execWith_eq_done p i s
  exact ⟨_, h⟩

/-- Settles O8: every arm of the configured machine ends in `done`, and `exec` is that machine at the defaults. -/
theorem everyInstructionCompletes : Obligations.EveryInstructionCompletes := fun i s =>
  ⟨execWith_params i s ▸ completes_execWith params i s, (execWith_params i s).symm,
    fun p => completes_execWith p i s⟩

/-! ### The outcomes of a step -/

theorem popped_of_port {s : State} {it : Item} {rest : List Item} (h : s.port = it :: rest) :
    s.popped = { s with port := rest } := by
  rw [State.popped, h, List.tail_cons]

theorem stepWith_of_decode_ok {p : Config.Params} {s : State} {it : Item} {rest : List Item} {i : Instr}
    (hport : s.port = it :: rest) (hi : decode it = .ok i) : stepWith p s = execWith p i s.popped := by
  simp only [stepWith, hport, hi]

/-- Settles O5: the step is `exec` on the popped state, which is the state without the item. -/
theorem stepRunsTheDecodedInstruction : Obligations.StepRunsTheDecodedInstruction := by
  intro s it rest i hport hi
  rw [← stepWith_params, stepWith_of_decode_ok hport hi, execWith_params, popped_of_port hport]

/-- An item that does not decode is a command word with a reserved opcode (R95). -/
theorem decode_eq_error {it : Item} {e : DecodeError} (h : decode it = .error e) :
    ∃ w, it = .cmd w ∧ (cmdOp w).toNat ∉ opcodes ∧ e = .reservedOpcode (cmdOp w) := by
  cases it with
  | cmd w =>
    have hop : (cmdOp w).toNat ∉ opcodes := fun hmem => by
      obtain ⟨i, hi⟩ := decodeCmd_of_mem_opcodes hmem
      cases hi.symm.trans h
    cases h.symm.trans (decodeCmd_of_notMem_opcodes hop)
    exact ⟨w, rfl, hop, rfl⟩
  | hdr | flags | adsr1 | adsr2 => cases h

/-- The three outcomes of a step: nothing at the port, an instruction, or a reserved opcode (R13, R95, R230). -/
theorem stepWith_cases (p : Config.Params) (s : State) :
    stepWith p s = .next s ∨ (∃ i, stepWith p s = execWith p i s.popped) ∨
    ∃ w rest, s.port = .cmd w :: rest ∧ (cmdOp w).toNat ∉ opcodes ∧
      stepWith p s = .refused (.reservedOpcode (cmdOp w)) := by
  cases hport : s.port with
  | nil => left; simp only [stepWith, hport]
  | cons it rest =>
    right
    cases hit : decode it with
    | ok i => exact .inl ⟨i, stepWith_of_decode_ok hport hit⟩
    | error e =>
      obtain ⟨w, rfl, hop, rfl⟩ := decode_eq_error hit
      refine .inr ⟨w, rest, rfl, hop, ?_⟩
      simp only [stepWith, hport, hit, refusalOf]

theorem wf_cmd_of_notMem_opcodes {w : CmdWord} (h : (cmdOp w).toNat ∉ opcodes) : Item.wf (.cmd w) = false := by
  rw [Item.wf, List.contains_eq_mem]
  exact decide_eq_false h

/-- Settles O7: no reason for a fault exists, and of the step's outcomes only the reserved opcode is a refusal. -/
theorem onlyReservedOpcodesStopTheBlock : Obligations.OnlyReservedOpcodesStopTheBlock := by
  refine ⟨fun s f => (nomatch f), fun s r h => ?_⟩
  rw [← stepWith_params] at h
  obtain hnext | ⟨i, hexec⟩ | ⟨w, rest, hport, hop, hrefused⟩ := stepWith_cases params s
  · cases hnext.symm.trans h
  · obtain ⟨t, ht⟩ := completes_execWith params i s.popped
    cases ht.symm.trans (hexec.symm.trans h)
  · cases hrefused.symm.trans h
    exact ⟨w, rest, hport, decodeCmd_of_notMem_opcodes hop, wf_cmd_of_notMem_opcodes hop, rfl⟩

/-! ### Who writes the memories, and who returns a result -/

section
variable {p : Config.Params} {i : Instr} {s t : State} (h : execWith p i s = .next t)
include h

/-- The two stores are the only writers of the sample memory (R40). -/
theorem execWith_mem :
    t.mem = s.mem ∨ (∃ a d, i = .memWr8 a d ∧ t.mem = memSetByte s.mem a.toNat (dataLow d)) ∨
    ∃ a d, i = .memWr16 a d ∧ t.mem = memSetHalf s.mem a.toNat d := by
  cases i
  case memWr8 a d => cases h; exact .inr (.inl ⟨a, d, rfl, rfl⟩)
  case memWr16 a d => cases h; exact .inr (.inr ⟨a, d, rfl, rfl⟩)
  all_goals cases h; left; simp

/-- The writers of the reverb unit: a tick, and the three commands on its registers and delay lines. -/
theorem execWith_rev :
    t.rev = s.rev ∨ (i = .tick ∧ t.rev = (sendReverb p s).rev) ∨ (i = .revClear ∧ t.rev = clearReverb s.rev) ∨
    (∃ idx d, i = .revWrite idx d ∧ t.rev = writeReverb p idx d s.rev) ∨
    ∃ idx, i = .revPreset idx ∧ t.rev = choosePreset p idx s.rev := by
  cases i
  case tick => cases h; exact .inr (.inl ⟨rfl, rfl⟩)
  case revClear => cases h; exact .inr (.inr (.inl ⟨rfl, rfl⟩))
  case revWrite idx d => cases h; exact .inr (.inr (.inr (.inl ⟨idx, d, rfl, rfl⟩)))
  case revPreset idx => cases h; exact .inr (.inr (.inr (.inr ⟨idx, rfl, rfl⟩)))
  all_goals cases h; left; simp

/-- The result field says which of the three commands with a result ran, if one did (R94, R230). -/
theorem execWith_result :
    (i = .tick ∧ t.result = .tick t.latches) ∨ (∃ a, i = .memRd8 a ∧ ∃ b, t.result = .byte b) ∨
    (∃ a, i = .memRd16 a ∧ ∃ b, t.result = .half b) ∨
    (i ≠ .tick ∧ (∀ a, i ≠ .memRd8 a) ∧ (∀ a, i ≠ .memRd16 a) ∧ t.result = .none) := by
  cases i
  case tick => cases h; exact .inl ⟨rfl, rfl⟩
  case memRd8 a => cases h; exact .inr (.inl ⟨a, rfl, _, rfl⟩)
  case memRd16 a => cases h; exact .inr (.inr (.inl ⟨a, rfl, _, rfl⟩))
  all_goals cases h; exact .inr (.inr (.inr ⟨nofun, nofun, nofun, rfl⟩))

end

@[simp] theorem writeReverb_buf (p : Config.Params) (idx : Byte) (d : U16) (r : Reverb) :
    (writeReverb p idx d r).buf = r.buf := by
  unfold writeReverb
  split
  · rfl
  · split <;> rfl

@[simp] theorem choosePreset_buf (p : Config.Params) (idx : Byte) (r : Reverb) :
    (choosePreset p idx r).buf = r.buf := by
  unfold choosePreset
  split <;> rfl

/-- Settles O21: only the two stores write the sample memory, and of the writers of the unit only the tick and the clear
touch its buffer. -/
theorem onlyTheirWritersWriteTheMemories : Obligations.OnlyTheirWritersWriteTheMemories := by
  intro i s t h
  rw [← execWith_params] at h
  refine ⟨fun hi b => ?mem, fun htick hclear b => ?buf⟩
  case mem =>
    obtain hmem | ⟨a, d, rfl, -⟩ | ⟨a, d, rfl, -⟩ := execWith_mem h
    · rw [hmem]
    · exact absurd rfl (hi a d).1
    · exact absurd rfl (hi a d).2
  case buf =>
    obtain hrev | ⟨rfl, -⟩ | ⟨rfl, -⟩ | ⟨idx, d, -, hrev⟩ | ⟨idx, -, hrev⟩ := execWith_rev h
    · rw [hrev]
    · exact absurd rfl htick
    · exact absurd rfl hclear
    · rw [hrev, writeReverb_buf]
    · rw [hrev, choosePreset_buf]

/-- Settles O22: the four cases of the result field. -/
theorem onlyThreeCommandsHaveAResult : Obligations.OnlyThreeCommandsHaveAResult := by
  intro i s t h
  rw [← execWith_params] at h
  obtain ⟨rfl, hres⟩ | ⟨a, rfl, b, hres⟩ | ⟨a, rfl, b, hres⟩ | ⟨htick, hrd8, hrd16, hres⟩ := execWith_result h
  · simp [hres]
  · simp [hres]
  · simp [hres]
  · simp [hres, htick, hrd8, hrd16]

/-! ### What an instruction can do to a voice -/

/-- The voice `v` with other contents of the seven registers that only the host writes (R21 to R27). -/
def Voice.withRegs (v : Voice) (startBlk pitch adsr1 adsr2 : U16) (volL volR : I16) (revEn : Bool) : Voice :=
  { v with startBlk, pitch, adsr1, adsr2, volL, volR, revEn }

/-- Everything an instruction can do to voice `j`, which holds `v` (R230): nothing, a register write, keying, a tick,
or a pipeline word in its lane. -/
inductive VoiceChange (p : Config.Params) (mem : List Host.Cell) (j : Fin 24) (v : Voice) : Instr → Voice → Prop
  | unchanged (i : Instr) : VoiceChange p mem j v i v
  | registers (i : Instr) (startBlk pitch adsr1 adsr2 : U16) (volL volR : I16) (revEn : Bool) :
      VoiceChange p mem j v i (v.withRegs startBlk pitch adsr1 adsr2 volL volR revEn)
  | keyOn {idx : Byte} (h : Names idx j) : VoiceChange p mem j v (.keyOn idx) (keyOnVoice v)
  | keyOff {idx : Byte} (h : Names idx j) : VoiceChange p mem j v (.keyOff idx) (keyOffVoice v)
  | allKeyOff : VoiceChange p mem j v .allKeyOff (keyOffVoice v)
  | tick : VoiceChange p mem j v .tick (voiceTick p mem v).voice
  | header {i : Instr} {filter : BitVec 3} {bit7 : Bool} {shift : BitVec 4}
      (hi : i = headerInstr filter j bit7 shift) : VoiceChange p mem j v i (headerVoice p mem filter shift v)
  | flags {i : Instr} {ignored : BitVec 5} {start rep fin : Bool} (hi : i = flagsInstr j ignored start rep fin) :
      VoiceChange p mem j v i (flagsVoice (flagBits start rep fin) v)

section
variable {p : Config.Params} {mem : List Host.Cell} {i : Instr} (s : State) {j : Fin 24} (f : Voice → Voice)

/-- A command on the voice it names changes that voice alone. -/
theorem VoiceChange.of_updVoice {idx : Byte}
    (h : Names idx j → VoiceChange p mem j s.voices[j] i (f s.voices[j])) :
    VoiceChange p mem j s.voices[j] i (updVoice s idx f).voices[j] := by
  rw [updVoice_voice]
  split
  · next hname => exact h hname
  · exact .unchanged i

/-- A pipeline word changes the voice of its lane alone. -/
theorem VoiceChange.of_setVoice {lane : Fin 24}
    (h : lane = j → VoiceChange p mem j s.voices[j] i (f s.voices[j])) :
    VoiceChange p mem j s.voices[j] i (setVoice s lane f).voices[j] := by
  rw [setVoice_voice]
  split
  · next hlane => exact h hlane
  · exact .unchanged i

end

/-- What any instruction does to any voice. -/
theorem execWith_voice {p : Config.Params} {i : Instr} {s t : State} (h : execWith p i s = .next t) (j : Fin 24) :
    VoiceChange p s.mem j s.voices[j] i t.voices[j] := by
  cases i
  case keyOn idx => cases h; exact .of_updVoice s _ .keyOn
  case keyOff idx => cases h; exact .of_updVoice s _ .keyOff
  case allKeyOff => cases h; rw [mapVoices_get]; exact .allKeyOff
  case tick => cases h; rw [mixTick_voice]; exact .tick
  case setStart | setPitch | setAdsr1 | setAdsr2 | setVolL | setVolR | setReverbEn =>
    cases h; exact .of_updVoice s _ fun _ => .registers _ _ _ _ _ _ _ _
  case adpcmHdrF0 | adpcmHdrF1 | adpcmHdrF2 | adpcmHdrF3 | adpcmHdrF4 | adpcmHdrF5 | adpcmHdrF6 | adpcmHdrF7 =>
    cases h
    refine .of_setVoice s _ fun hlane => ?_
    subst hlane
    exact .header rfl
  case adpcmFlagsContinue | adpcmFlagsLoop | adpcmFlagsStop =>
    cases h
    refine .of_setVoice s _ fun hlane => ?_
    subst hlane
    exact .flags rfl
  case adsr1Word | adsr2Word =>
    cases h
    dsimp only
    exact .of_setVoice s _ fun _ => .registers _ _ _ _ _ _ _ _
  all_goals cases h; exact .unchanged _

end Sys2Proof.Machine
end

section
/-! PROOFS. The invariants of R51 and the canonical form of the two memories: they hold at reset and every step keeps
them. -/

namespace Sys2Proof.Machine

/-! ### The voice operations keep the invariants -/

section
variable {v : Voice}

theorem Voice.inv_reset : Voice.reset.Inv where
  active_iff := by decide
  level_nonneg := by decide
  cur_aligned := rfl
  loop_aligned := rfl
  pcount_lt := by decide
  envCnt_lt := by decide
  off_silent _ := rfl

theorem Voice.Inv.withRegs (h : v.Inv) (a b c d : U16) (l r : I16) (e : Bool) : (v.withRegs a b c d l r e).Inv :=
  { h with }

/-- A voice turned off has nothing left that R51 restricts but its addresses and its pitch counter (R139). -/
theorem Voice.Inv.voiceOff (h : v.Inv) : (voiceOff v).Inv :=
  { h with
    active_iff := by simp
    level_nonneg := by simp
    envCnt_lt := by simp
    off_silent := fun _ => rfl }

theorem startAddr_aligned (b : U16) : (startAddr b).toNat % 16 = 0 := by
  rw [toNat_startAddr]; omega

theorem inv_keyOnVoice : (keyOnVoice v).Inv where
  active_iff := by simp [keyOnVoice]
  level_nonneg := by simp [keyOnVoice]
  cur_aligned := startAddr_aligned v.startBlk
  loop_aligned := startAddr_aligned v.startBlk
  pcount_lt := by simp [keyOnVoice]
  envCnt_lt := by simp [keyOnVoice]
  off_silent h := by simp [keyOnVoice] at h

/-- Everything `KEY_OFF` can do (R234): release a held key, or nothing. -/
theorem keyOffVoice_cases (v : Voice) : keyOffVoice v = v ∨
    (v.active = true ∧ (v.phase = .attack ∨ v.phase = .decay ∨ v.phase = .sustain) ∧
      keyOffVoice v = { v with phase := .release, envCnt := 0 }) := by
  obtain hactive | hactive := Bool.eq_false_or_eq_true v.active
  · cases hphase : v.phase
    case release | off => exact .inl (keyOffVoice_of_released (by simp [hphase]))
    all_goals exact .inr ⟨hactive, by simp, keyOffVoice_of_held hactive (by simp [hphase])⟩
  · exact .inl (keyOffVoice_of_inactive hactive)

theorem Voice.Inv.keyOffVoice (h : v.Inv) : (keyOffVoice v).Inv := by
  obtain heq | ⟨hactive, -, heq⟩ := keyOffVoice_cases v
  · rwa [heq]
  · rw [heq]
    exact { h with
      active_iff := by simp [hactive]
      envCnt_lt := by simp
      off_silent := by simp }

/-! ### The fetch -/

theorem Voice.Inv.loadBlock (h : v.Inv) (p : Config.Params) (f : BitVec 3) (sh : BitVec 4) (d : Vector Byte 14) :
    (loadBlock p f sh d v).Inv := { h with }

theorem Voice.Inv.latchFlags (h : v.Inv) (f : BitVec 3) : (latchFlags f v).Inv :=
  { h with
    loop_aligned := by
      simp only [Machine.latchFlags]
      split
      · exact h.cur_aligned
      · exact h.loop_aligned }

theorem Voice.Inv.fetchIfDue (h : v.Inv) (p : Config.Params) (m : List Host.Cell) : (fetchIfDue p m v).Inv := by
  unfold Machine.fetchIfDue
  split
  · exact h
  · exact (h.loadBlock ..).latchFlags _

theorem Voice.Inv.headerVoice (h : v.Inv) (p : Config.Params) (m : List Host.Cell) (f : BitVec 3) (sh : BitVec 4) :
    (headerVoice p m f sh v).Inv := by
  unfold Machine.headerVoice
  split
  · exact h.loadBlock ..
  · exact h

/-! ### The cursor -/

theorem Voice.Inv.blockEnd (h : v.Inv) : (blockEnd v).Inv := by
  have hnext : (v.curAddr + 16).toNat % 16 = 0 := by
    rw [toNat_curAddr_add_16]
    have := h.cur_aligned
    omega
  obtain ⟨-, heq⟩ | ⟨-, -, heq⟩ | ⟨-, -, heq⟩ := blockEnd_cases v
  · rw [heq]; exact { h with cur_aligned := hnext }
  · rw [heq]; exact { h with cur_aligned := h.loop_aligned }
  · rw [heq]; exact Voice.Inv.voiceOff { h with cur_aligned := h.loop_aligned }

theorem Voice.Inv.flagsVoice (h : v.Inv) (f : BitVec 3) : (flagsVoice f v).Inv := by
  unfold Machine.flagsVoice
  split
  · exact (h.latchFlags f).blockEnd
  · exact h

theorem Voice.Inv.moved (h : v.Inv) : (moved v).Inv := by
  rw [moved_eq h.pcount_lt]
  exact { h with
    pcount_lt := by
      rw [BitVec.toNat_ofNat]
      omega }

theorem Voice.Inv.advance (h : v.Inv) : (advance v).Inv := by
  obtain heq | heq := advance_cases v
  · rw [heq]; exact h.moved
  · rw [heq]; exact h.moved.blockEnd

/-! ### The envelope -/

theorem envBase_step_nonneg (rate rateMax : Nat) : 0 ≤ (envBase rate false rateMax).1 := by
  have hm : (0 : Int) ≤ 7 - (rate % 4 : ℕ) := by omega
  rw [envBase_step]
  dsimp only
  split
  · exact mul_nonneg hm (by positivity)
  · exact hm

/-- The adjusted step of an increasing phase does not lower the level. -/
theorem envAdjust_step_nonneg {step : Int} (inc rate : Nat) (exponential : Bool) (level : Int) (hstep : 0 ≤ step) :
    0 ≤ (envAdjust step inc rate false exponential level).1 := by
  cases exponential
  · exact hstep
  by_cases hknee : level < 0x6000
  · rw [envAdjust_belowKnee step inc rate hknee]; exact hstep
  rw [Int.not_lt] at hknee
  by_cases h40 : rate < 40
  · rw [envAdjust_quarterStep step inc hknee h40]; exact Int.ediv_nonneg hstep (by decide)
  by_cases h44 : rate < 44
  · rw [envAdjust_halveBoth step inc hknee (Nat.not_lt.mp h40) h44]; exact Int.ediv_nonneg hstep (by decide)
  · rw [envAdjust_quarterInc step inc hknee (Nat.not_lt.mp h44)]; exact hstep

theorem envMove_step_nonneg {q : PhaseParams} (v : Voice) (hinc : q.decreasing = false) : 0 ≤ (envMove q v).1 := by
  rw [envMove, hinc]
  exact envAdjust_step_nonneg _ _ _ _ (envBase_step_nonneg ..)

/-- A due change keeps the level at 0 or above: decreasing phases are floored, increasing ones only rise (R156). -/
theorem envLevel_envMove_nonneg (q : PhaseParams) (hlevel : 0 ≤ v.level.toInt) :
    0 ≤ (envLevel q.decreasing v.level.toInt (envMove q v).1).toInt := by
  rw [toInt_envLevel_envMove q hlevel]
  cases hdec : q.decreasing
  · have := envMove_step_nonneg v hdec
    simp only [Bool.false_eq_true, if_false]
    omega
  · simp

/-- The counter and the level keep the invariants of a running envelope. -/
theorem Voice.Inv.envCount (h : v.Inv) (hrun : v.phase ≠ .off) (q : PhaseParams) : (envCount q v).Inv := by
  rw [envCount_eq]
  split
  · exact { h with
      level_nonneg := envLevel_envMove_nonneg q h.level_nonneg
      envCnt_lt := by simp
      off_silent := fun hoff => absurd hoff hrun }
  · next hwait =>
    rw [counterFull_iff] at hwait
    exact { h with envCnt_lt := Nat.not_le.mp hwait }

theorem Voice.Inv.envTransition (h : v.Inv) : (envTransition v).Inv := by
  have hactive (hrun : v.phase ≠ .off) : v.active = true := h.active_iff.2 hrun
  obtain heq | ⟨hphase, -, heq⟩ | ⟨hphase, -, heq⟩ | ⟨-, -, heq⟩ := envTransition_cases v
  · rwa [heq]
  · rw [heq]
    exact { h with
      active_iff := by simp [hactive, hphase]
      envCnt_lt := by simp
      off_silent := by simp }
  · rw [heq]
    exact { h with
      active_iff := by simp [hactive, hphase]
      envCnt_lt := by simp
      off_silent := by simp }
  · rw [heq]; exact h.voiceOff

/-- A phase without parameters is Off (R152). -/
theorem phaseParams_eq_none_iff {a1 a2 : U16} {ph : Phase} : phaseParams a1 a2 ph = none ↔ ph = .off := by
  cases ph <;> simp [phaseParams]

/-- Everything an envelope step can do (R157): nothing in Off; in any other phase count, then test the transitions. -/
theorem envStep_cases (v : Voice) : (v.phase = .off ∧ envStep v = v) ∨
    ∃ q, v.phase ≠ .off ∧ phaseParams v.adsr1 v.adsr2 v.phase = some q ∧ envStep v = envTransition (envCount q v) := by
  by_cases hoff : v.phase = .off
  · exact .inl ⟨hoff, envStep_of_off hoff⟩
  · obtain ⟨q, hq⟩ := Option.ne_none_iff_exists'.1 (mt phaseParams_eq_none_iff.1 hoff)
    exact .inr ⟨q, hoff, hq, envStep_of_params hq⟩

theorem Voice.Inv.envStep (h : v.Inv) : (envStep v).Inv := by
  obtain ⟨-, heq⟩ | ⟨q, hrun, -, heq⟩ := envStep_cases v
  · rwa [heq]
  · rw [heq]; exact (h.envCount hrun q).envTransition

/-! ### The voice's part of a tick -/

theorem Voice.Inv.moveOn (h : v.Inv) : (moveOn v).Inv := by
  cases hactive : (Machine.envStep v).active
  · rw [moveOn_of_inactive hactive]; exact h.envStep
  · rw [moveOn_of_active hactive]; exact h.envStep.advance

theorem Voice.Inv.voiceTick (h : v.Inv) (p : Config.Params) (m : List Host.Cell) : (voiceTick p m v).voice.Inv := by
  cases hactive : v.active
  · rw [voiceTick_of_inactive p m hactive]; exact h
  · rw [voiceTick_of_active p m hactive]; exact (h.fetchIfDue p m).moveOn

/-- Whatever an instruction does to a voice keeps its invariants. -/
theorem VoiceChange.inv {p : Config.Params} {mem : List Host.Cell} {j : Fin 24} {i : Instr} {w : Voice}
    (hchange : VoiceChange p mem j v i w) (h : v.Inv) : w.Inv := by
  cases hchange with
  | unchanged => exact h
  | registers => exact h.withRegs ..
  | keyOn => exact inv_keyOnVoice
  | keyOff | allKeyOff => exact h.keyOffVoice
  | tick => exact h.voiceTick p mem
  | header => exact h.headerVoice ..
  | flags => exact h.flagsVoice _

end

/-! ### The reverb unit -/

section
variable {p : Config.Params} {r : Reverb}

theorem Reverb.inv_reset : Reverb.reset.Inv p where
  len_le := Nat.zero_le _
  cur_lt h := absurd h (Nat.lt_irrefl 0)
  cur_zero _ := rfl
  buf_wf := rfl

theorem Reverb.Inv.revWriteBuf (h : r.Inv p) (h0 : 0 < r.len) (off : Int) (x : I16) : (revWriteBuf r off x).Inv p :=
  { h with buf_wf := bufWf_revWriteBuf off x h0 h.len_le h.buf_wf }

theorem Reverb.Inv.reflections (h : r.Inv p) (h0 : 0 < r.len) (dl dr : I16) : (reflections dl dr r).Inv p :=
  (((h.revWriteBuf h0 _ _).revWriteBuf h0 _ _).revWriteBuf h0 _ _).revWriteBuf h0 _ _

theorem Reverb.Inv.diffuse (h : r.Inv p) (h0 : 0 < r.len) (m1 m2 : RevReg) (c : Int) : (diffuse m1 m2 c r).rev.Inv p :=
  (h.revWriteBuf h0 _ _).revWriteBuf h0 _ _

theorem Reverb.Inv.stepPosition (h : r.Inv p) (h0 : 0 < r.len) : (stepPosition r).Inv p :=
  { h with
    cur_lt := fun _ => Nat.mod_lt _ h0
    cur_zero := fun hlen => absurd hlen h0.ne' }

theorem Reverb.Inv.coreStep (h : r.Inv p) (dl dr : I16) : (coreStep dl dr r).rev.Inv p := by
  unfold Machine.coreStep
  split
  · exact h
  · next hlen =>
    have h0 : 0 < r.len := Nat.pos_of_ne_zero hlen
    exact (((h.reflections h0 dl dr).diffuse h0 _ _ _).diffuse h0 _ _ _).stepPosition h0

/-- The invariants speak of the region, the position and the buffer alone. -/
theorem Reverb.Inv.congr {r' : Reverb} (h : r.Inv p) (hlen : r'.len = r.len) (hcur : r'.cur = r.cur)
    (hbuf : r'.buf = r.buf) : r'.Inv p where
  len_le := hlen ▸ h.len_le
  cur_lt := by rw [hlen, hcur]; exact h.cur_lt
  cur_zero := by rw [hlen, hcur]; exact h.cur_zero
  buf_wf := by rw [Reverb.bufWf, hbuf]; exact h.buf_wf

theorem Reverb.Inv.reverbTick (h : r.Inv p) (a b : I16) : (reverbTick p a b r).rev.Inv p := by
  have hpush : (pushInput a b r).Inv p := h.congr rfl rfl rfl
  unfold Machine.reverbTick
  dsimp only
  split
  · exact (hpush.coreStep _ _).congr rfl rfl rfl
  · exact hpush.congr rfl rfl rfl

theorem Reverb.Inv.setRevLen (h : r.Inv p) {n : Nat} (hn : n ≤ p.revbufMax) : (setRevLen r n).Inv p :=
  { h with
    len_le := hn
    cur_lt := setRevLen_cur_lt r
    cur_zero := fun h0 => by rw [setRevLen_len] at h0; rw [h0, setRevLen_cur_zero] }

theorem Reverb.Inv.writeReverb (h : r.Inv p) (idx : Byte) (d : U16) : (writeReverb p idx d r).Inv p := by
  unfold Machine.writeReverb
  split
  · exact { h with }
  · split
    · exact h.setRevLen (Nat.min_le_right _ _)
    · exact h

theorem Reverb.Inv.choosePreset (h : r.Inv p) (idx : Byte) : (choosePreset p idx r).Inv p := by
  unfold Machine.choosePreset
  split
  · next e _ => exact Reverb.Inv.setRevLen (r := { r with reg := e.reg }) { h with } (Nat.min_le_right _ _)
  · exact h

theorem Reverb.Inv.clearReverb (h : r.Inv p) : (clearReverb r).Inv p :=
  { h with
    cur_lt := id
    cur_zero := fun _ => rfl
    buf_wf := rfl }

end

/-! ### The whole block -/

/-- Settles O10: every voice is `Voice.reset`, the unit is `Reverb.reset`, and the sample memory has no entries. -/
theorem resetHasTheInvariants : Obligations.ResetHasTheInvariants where
  voices j := (State.reset_voice j).symm ▸ Voice.inv_reset
  rev := Reverb.inv_reset
  mem_wf := rfl

theorem State.InvWith.execWith {p : Config.Params} {i : Instr} {s t : State} (h : s.InvWith p)
    (hexec : execWith p i s = .next t) : t.InvWith p where
  voices j := (execWith_voice hexec j).inv (h.voices j)
  rev := by
    obtain heq | ⟨-, heq⟩ | ⟨-, heq⟩ | ⟨idx, d, -, heq⟩ | ⟨idx, -, heq⟩ := execWith_rev hexec
    · rw [heq]; exact h.rev
    · rw [heq]; exact h.rev.reverbTick _ _
    · rw [heq]; exact h.rev.clearReverb
    · rw [heq]; exact h.rev.writeReverb idx d
    · rw [heq]; exact h.rev.choosePreset idx
  mem_wf := by
    obtain heq | ⟨a, d, -, heq⟩ | ⟨a, d, -, heq⟩ := execWith_mem hexec
    · rw [heq]; exact h.mem_wf
    · rw [heq]; exact wf_memSetByte _ _ h.mem_wf
    · rw [heq]; exact wf_memSetHalf _ _ h.mem_wf

theorem State.InvWith.stepWith {p : Config.Params} {s t : State} (h : s.InvWith p) (hstep : stepWith p s = .next t) :
    t.InvWith p := by
  obtain hidle | ⟨i, hexec⟩ | ⟨w, rest, -, -, hrefused⟩ := stepWith_cases p s
  · cases hidle.symm.trans hstep
    exact h
  · have hpopped : s.popped.InvWith p := { h with }
    exact hpopped.execWith (hexec.symm.trans hstep)
  · cases hrefused.symm.trans hstep

/-- Settles O11: each voice, the reverb unit and the sample memory keep their part under whatever the step executes. -/
theorem stepKeepsTheInvariants : Obligations.StepKeepsTheInvariants := by
  refine ⟨fun s t h hstep => ?_, fun p s t h hstep => h.stepWith hstep⟩
  rw [← stepWith_params] at hstep
  exact h.stepWith hstep

end Sys2Proof.Machine
end

section
/-! PROOFS. The envelope over many steps: its parameters in numbers (R88, R89, R152), how long a level stands still and
how it ends (R157 to R166). -/

namespace Sys2Proof.Machine

/-! ### The parameters of a phase in numbers (R152) -/

theorem toNat_extractLsb'_eq_div_mod (w : U16) (start len : Nat) :
    (w.extractLsb' start len).toNat = w.toNat / 2 ^ start % 2 ^ len := by
  rw [BitVec.extractLsb'_toNat, Nat.shiftRight_eq_div_pow]

theorem getLsbD_eq_decide (w : U16) (k : Nat) : w.getLsbD k = decide (w.toNat / 2 ^ k % 2 = 1) := by
  rw [BitVec.getLsbD, Nat.testBit_eq_decide_div_mod_eq]

/-- Bit 15 is the comparison with 0x8000. -/
theorem getLsbD_15 (w : U16) : w.getLsbD 15 = decide (0x8000 ≤ w.toNat) :=
  (BitVec.msb_eq_getLsbD_last w).symm.trans (BitVec.msb_eq_decide w)

/-- Settles O35: the fields by their place in the words, phase by phase. -/
theorem phaseParametersFromTheWords : Obligations.PhaseParametersFromTheWords := by
  refine fun a1 a2 => ⟨?attack, ?decay, ?sustain, ?release, rfl⟩
  case attack =>
    simp only [phaseParams, rateOf, attackShift, attackStep, attackExp, toNat_extractLsb'_eq_div_mod, getLsbD_15,
      Nat.reducePow]
  case decay => simp only [phaseParams, rateOf, decayShift, toNat_extractLsb'_eq_div_mod, Nat.reducePow, Nat.add_zero]
  case sustain =>
    simp only [phaseParams, rateOf, sustainShift, sustainStep, sustainDec, sustainExp, toNat_extractLsb'_eq_div_mod,
      getLsbD_15, getLsbD_eq_decide a2 14, Nat.reducePow]
  case release =>
    simp only [phaseParams, rateOf, releaseShift, releaseExp, toNat_extractLsb'_eq_div_mod, getLsbD_eq_decide a2 5,
      Nat.reducePow, pow_zero, Nat.div_one, Nat.add_zero]

/-- The parameters of a Release (R152). -/
def releaseParams (adsr2 : U16) : PhaseParams :=
  { rate := adsr2.toNat % 32 * 4, decreasing := true, exponential := decide (adsr2.toNat / 32 % 2 = 1), rateMax := 124 }

theorem phaseParams_release (a1 a2 : U16) : phaseParams a1 a2 .release = some (releaseParams a2) :=
  (phaseParametersFromTheWords a1 a2).2.2.2.1

section
variable {v : Voice} {q : PhaseParams}

theorem envStep_release (h : v.phase = .release) : envStep v =
    if (envCount (releaseParams v.adsr2) v).level = 0 then voiceOff (envCount (releaseParams v.adsr2) v)
    else envCount (releaseParams v.adsr2) v := by
  have hq : phaseParams v.adsr1 v.adsr2 v.phase = some (releaseParams v.adsr2) := by rw [h, phaseParams_release]
  rw [envStep_of_params hq, envTransition_release ((envCount_phase _ v).trans h)]

theorem envStep_sustain (h : v.phase = .sustain) (hq : phaseParams v.adsr1 v.adsr2 .sustain = some q) :
    envStep v = envCount q v := by
  rw [← h] at hq
  rw [envStep_of_params hq, envTransition_sustain ((envCount_phase q v).trans h)]

/-! ### A step without an increment -/

theorem envCount_of_inc_eq_zero (hcnt : v.envCnt.toNat < 0x8000) (hinc : (envMove q v).2 = 0) : envCount q v = v := by
  rw [envCount_of_lt q hcnt (by omega), hinc, Nat.add_zero, BitVec.ofNat_toNat, BitVec.setWidth_eq]

/-! ### A decreasing level (R154, R156, R165) -/

theorem envBase_step_neg (rate rateMax : Nat) : (envBase rate true rateMax).1 < 0 := by
  have hm : -(7 - (rate % 4 : ℕ)) < (0 : Int) := by omega
  rw [envBase_step]
  dsimp only
  split
  · exact mul_neg_of_neg_of_pos hm (by positivity)
  · exact hm

/-- In either mode the step of a decreasing phase takes at least 1 from a positive level. -/
theorem envAdjust_step_neg {step level : Int} (inc rate : Nat) (exponential : Bool) (hstep : step < 0)
    (hlevel : 0 < level) : (envAdjust step inc rate true exponential level).1 ≤ -1 := by
  cases exponential
  · exact Int.le_sub_one_of_lt hstep
  · exact asr_neg 15 (mul_neg_of_neg_of_pos hstep hlevel)

/-- Settles O39: the floored product of a negative step and the level is at most -1 above level 0, and 0 there. -/
theorem exponentialDecreaseAlwaysFalls : Obligations.ExponentialDecreaseAlwaysFalls := by
  intro rate rateMax inc level h0 hmax ts
  have hstep := envBase_step_neg rate rateMax
  refine ⟨fun hpos => ?falls, fun hzero => ?rests⟩
  case falls =>
    have hts : ts ≤ -1 := envAdjust_step_neg inc rate true hstep hpos
    rw [envLevel_decreasing (by omega)]
    omega
  case rests =>
    have hts : ts ≤ 0 := envAdjust_step_nonpos inc rate true hstep.le h0
    rw [envLevel_decreasing (by omega)]
    omega

/-! ### Release (R157, R159, R160) -/

/-- A release at level 0 ends at once, whatever its rate. -/
theorem envCount_level_zero (hdec : q.decreasing = true) (hlevel : v.level = 0) : (envCount q v).level = 0 := by
  have hint : v.level.toInt = 0 := by rw [hlevel]; rfl
  have hfall : (envMove q v).1 ≤ 0 := envMove_step_nonpos hdec hint.ge
  rw [envCount_eq]
  split
  · refine BitVec.eq_of_toInt_eq ?_
    rw [toInt_envLevel_envMove q hint.ge, hdec, if_pos rfl, hint]
    exact max_eq_right (by omega)
  · exact hlevel

theorem envStep_release_of_level_zero (h : v.phase = .release) (hlevel : v.level = 0) :
    envStep v = voiceOff (envCount (releaseParams v.adsr2) v) := by
  rw [envStep_release h, if_pos (envCount_level_zero rfl hlevel)]

theorem envMove_inc_release (v : Voice) :
    (envMove (releaseParams v.adsr2) v).2 = (envBase (v.adsr2.toNat % 32 * 4) true 124).2 := by
  unfold envMove releaseParams
  cases decide (v.adsr2.toNat / 32 % 2 = 1) <;> rfl

/-- Settles O41: at the largest rate the increment is 0, so the counter never fills. -/
theorem releaseAtTheLargestRateNeverEnds : Obligations.ReleaseAtTheLargestRateNeverEnds := by
  intro v n hinv hphase hlevel hshift
  have hinc : (envMove (releaseParams v.adsr2) v).2 = 0 := by
    rw [envMove_inc_release, hshift, envBase_inc]
    rfl
  have hfix : envStep v = v := by
    rw [envStep_release hphase, envCount_of_inc_eq_zero hinv.envCnt_lt hinc, if_neg hlevel]
  rw [Function.iterate_fixed hfix]
  exact ⟨hphase, rfl⟩

/-- Below rate 48 every step is due, and takes at least 1 from a positive level. -/
theorem envCount_release_falls (hinv : v.Inv) (hshift : v.adsr2.toNat % 32 < 12) (hpos : 0 < v.level.toInt) :
    (envCount (releaseParams v.adsr2) v).level.toInt < v.level.toInt := by
  have hinc : (envMove (releaseParams v.adsr2) v).2 = 0x8000 := by
    rw [envMove_inc_release, envBase_inc, if_pos (by omega)]
  have hfall : (envMove (releaseParams v.adsr2) v).1 ≤ -1 :=
    envAdjust_step_neg _ _ _ (envBase_step_neg ..) hpos
  rw [envCount_of_ge _ hinv.envCnt_lt (by omega), toInt_envLevel_envMove _ hinv.level_nonneg]
  simp only [releaseParams, if_true] at hfall ⊢
  omega

/-- The host's registers hold still during any number of envelope steps. -/
theorem envStep_adsr2 (v : Voice) : (envStep v).adsr2 = v.adsr2 :=
  congrArg (·.2.2.2.1) (envStep_hostRegs v)

/-- By induction on a bound of the level: a step ends the release or leaves it running at a lower level. -/
theorem exists_iterate_envStep_off (n : Nat) (hinv : v.Inv) (hphase : v.phase = .release)
    (hshift : v.adsr2.toNat % 32 < 12) (hlevel : v.level.toInt ≤ n) :
    ∃ k ≤ n + 1, (envStep^[k] v).phase = .off ∧ (envStep^[k] v).active = false := by
  induction n generalizing v with
  | zero =>
    have hzero : v.level = 0 := BitVec.eq_of_toInt_eq (le_antisymm hlevel hinv.level_nonneg)
    refine ⟨1, le_rfl, ?_⟩
    rw [Function.iterate_one, envStep_release_of_level_zero hphase hzero]
    exact ⟨rfl, rfl⟩
  | succ n ih =>
    have hstep := envStep_release hphase
    split at hstep
    case isTrue => exact ⟨1, by omega, by rw [Function.iterate_one, hstep]; exact ⟨rfl, rfl⟩⟩
    case isFalse hrunning =>
      have hpos : 0 < v.level.toInt := by
        refine lt_of_le_of_ne hinv.level_nonneg fun hzero => hrunning ?_
        exact envCount_level_zero rfl (BitVec.eq_of_toInt_eq hzero.symm)
      have hfall : (envStep v).level.toInt < v.level.toInt := hstep ▸ envCount_release_falls hinv hshift hpos
      have hphase' : (envStep v).phase = .release := by rw [hstep, envCount_phase, hphase]
      obtain ⟨k, hk, hoff⟩ := ih hinv.envStep hphase' (by rwa [envStep_adsr2]) (by omega)
      exact ⟨k + 1, by omega, hoff⟩

/-- Settles O40: the level itself is the bound. -/
theorem releaseReachesOff : Obligations.ReleaseReachesOff := by
  intro v hinv hphase hshift
  have hlevel := hinv.level_nonneg
  obtain ⟨k, hk, hoff⟩ :=
    exists_iterate_envStep_off v.level.toInt.toNat hinv hphase hshift (Int.self_le_toNat _)
  exact ⟨k, by omega, hoff⟩

/-! ### Attack at a high level (R154, R166) -/

/-- From rate 100 on a quarter of the increment is nothing. -/
theorem envBase_inc_div_four {rate : Nat} (h : 100 ≤ rate) (rateMax : Nat) (decreasing : Bool) :
    (envBase rate decreasing rateMax).2 / 4 = 0 := by
  rw [envBase_inc, if_neg (by omega)]
  split_ifs with h108
  · have hle : 2 ^ (26 - rate / 4) ≤ 2 ^ 1 := Nat.pow_le_pow_right Nat.two_pos (show 26 - rate / 4 ≤ 1 by omega)
    exact Nat.div_eq_of_lt (by omega)
  · rfl
  · rfl

/-- Settles O42: a quarter of the increment is 0, so the counter never fills, and below 0x7FFF no transition is made. -/
theorem exponentialAttackStalls : Obligations.ExponentialAttackStalls := by
  intro v q hinv hphase hq hexp hrate hknee htop
  have hdec : q.decreasing = false := by cases hq; rfl
  have hinc : (envMove q v).2 = 0 := by
    rw [envMove, hdec, hexp, envAdjust_quarterInc _ _ hknee (by omega)]
    exact envBase_inc_div_four hrate _ _
  rw [← hphase] at hq
  rw [envStep_of_params hq, envCount_of_inc_eq_zero hinv.envCnt_lt hinc, envTransition_attack hphase,
    if_neg (Int.not_le.mpr htop)]

end

/-! ### Sustain at a slow linear rate (R153, R163) -/

/-- A voice in a linear increasing Sustain with parameters `q`, at a rate of 48 to 107. -/
structure SlowSustain (q : PhaseParams) (v : Voice) : Prop where
  params : phaseParams v.adsr1 v.adsr2 .sustain = some q
  phase : v.phase = .sustain
  increasing : q.decreasing = false
  linear : q.exponential = false
  rate_ge : 48 ≤ q.rate
  rate_lt : q.rate < 108

/-- The voice with its envelope counter at `n`. -/
def Voice.withCount (v : Voice) (n : Nat) : Voice := { v with envCnt := BitVec.ofNat 16 n }

theorem Voice.withCount_zero {v : Voice} (h : v.envCnt = 0) : v.withCount 0 = v := by
  cases v; cases h; rfl

theorem Voice.toNat_envCnt_withCount (v : Voice) {n : Nat} (h : n < 0x8000) : (v.withCount n).envCnt.toNat = n :=
  Nat.mod_eq_of_lt (show n < 2 ^ 16 by omega)

namespace SlowSustain

variable {v : Voice} {q : PhaseParams} (h : SlowSustain q v)
include h

/-- A period of the counter: so many increments are exactly bit 15. -/
theorem period_mul_inc : 2 ^ (q.rate / 4 - 11) * 2 ^ (26 - q.rate / 4) = 0x8000 := by
  have := h.rate_ge
  have := h.rate_lt
  rw [← pow_add, show q.rate / 4 - 11 + (26 - q.rate / 4) = 15 by omega]
  rfl

/-- The step and the increment depend on neither the level nor the counter. -/
theorem envMove_eq (w : Voice) : envMove q w = (7 - ((q.rate % 4 : ℕ) : Int), 2 ^ (26 - q.rate / 4)) := by
  have h48 : ¬ q.rate < 48 := Nat.not_lt.mpr h.rate_ge
  have h44 : ¬ q.rate < 44 := by omega
  rw [envMove, h.linear, envAdjust_linear, h.increasing, envBase_step, envBase_inc, if_neg h48, if_pos h.rate_lt]
  simp only [if_neg h44, Bool.false_eq_true, if_false]

theorem envStep_withCount (n : Nat) : envStep (v.withCount n) = envCount q (v.withCount n) :=
  envStep_sustain (v := v.withCount n) h.phase h.params

/-- Short of bit 15 a step only counts. -/
theorem envStep_of_lt {n : Nat} (hn : n + 2 ^ (26 - q.rate / 4) < 0x8000) :
    envStep (v.withCount n) = v.withCount (n + 2 ^ (26 - q.rate / 4)) := by
  have hlt : n < 0x8000 := Nat.lt_of_le_of_lt (Nat.le_add_right ..) hn
  have hcnt := v.toNat_envCnt_withCount hlt
  rw [h.envStep_withCount, envCount_of_lt q (hcnt.trans_lt hlt) (by rwa [h.envMove_eq, hcnt]), h.envMove_eq, hcnt]
  rfl

/-- On reaching bit 15 the counter starts again and the level moves. -/
theorem envStep_of_ge {n : Nat} (hn : n < 0x8000) (hdue : 0x8000 ≤ n + 2 ^ (26 - q.rate / 4)) :
    envStep (v.withCount n) = { v with envCnt := 0, level := envLevel false v.level.toInt (7 - (q.rate % 4 : ℕ)) } := by
  have hcnt := v.toNat_envCnt_withCount hn
  rw [h.envStep_withCount, envCount_of_ge q (hcnt.trans_lt hn) (by rwa [h.envMove_eq, hcnt]), h.envMove_eq,
    h.increasing]
  rfl

/-- Inside a period the steps only count. -/
theorem iterate_envStep {n : Nat} (hcnt : v.envCnt = 0) (hn : n < 2 ^ (q.rate / 4 - 11)) :
    envStep^[n] v = v.withCount (n * 2 ^ (26 - q.rate / 4)) := by
  induction n with
  | zero => rw [Nat.zero_mul, Voice.withCount_zero hcnt]; rfl
  | succ n ih =>
    have hlt := Nat.mul_lt_mul_of_pos_right hn (Nat.two_pow_pos (26 - q.rate / 4))
    rw [h.period_mul_inc, Nat.succ_mul] at hlt
    rw [Function.iterate_succ_apply', ih (by omega), h.envStep_of_lt hlt, Nat.succ_mul]

/-- The last step of a period is the first that is due. -/
theorem iterate_envStep_period (hcnt : v.envCnt = 0) : envStep^[2 ^ (q.rate / 4 - 11)] v =
    { v with envCnt := 0, level := envLevel false v.level.toInt (7 - (q.rate % 4 : ℕ)) } := by
  obtain ⟨n, hperiod⟩ := Nat.exists_eq_succ_of_ne_zero (Nat.two_pow_pos (q.rate / 4 - 11)).ne'
  have hinc := Nat.two_pow_pos (26 - q.rate / 4)
  have hfull := h.period_mul_inc
  rw [hperiod, Nat.succ_mul] at hfull
  rw [hperiod, Function.iterate_succ_apply', h.iterate_envStep hcnt (by omega),
    h.envStep_of_ge (by omega) hfull.ge]

end SlowSustain

/-- Settles O38: a period of waiting steps, the last of which is due and moves the level. -/
theorem slowRatesStepEveryPowerOfTwo : Obligations.SlowRatesStepEveryPowerOfTwo := by
  intro v q hq hphase hdec hexp h48 h108 hcnt hlevel htop
  have h : SlowSustain q v := ⟨hq, hphase, hdec, hexp, h48, h108⟩
  refine ⟨fun n hn => ?_, ?_⟩
  · rw [h.iterate_envStep hcnt hn]
    rfl
  · rw [h.iterate_envStep_period hcnt]
    exact ⟨(envLevel_increasing _ _).trans (clamp_of_mem (by omega) (by omega)), rfl⟩

end Sys2Proof.Machine
end

section
/-! PROOFS. The phases of a voice: a key pressed and released between two ticks, and the complete list of transitions
(R151). -/

namespace Sys2Proof.Machine

/-! ### A voice at level 0 (R157, R180) -/

section
variable (p : Config.Params) (m : List Host.Cell) {v : Voice}

theorem voiceTick_of_level_zero (hactive : v.active = true) (hlevel : v.level = 0) :
    (voiceTick p m v).left = 0 ∧ (voiceTick p m v).right = 0 := by
  simp [voiceTick_of_active p m hactive, hlevel]

theorem voiceTick_release_of_level_zero (hactive : v.active = true) (hphase : v.phase = .release)
    (hlevel : v.level = 0) :
    (voiceTick p m v).voice.active = false ∧ (voiceTick p m v).voice.phase = .off ∧
      (voiceTick p m v).voice.level = 0 := by
  obtain ⟨w, hoff⟩ : ∃ w, envStep (fetchIfDue p m v) = voiceOff w :=
    ⟨_, envStep_release_of_level_zero (by simp [hphase]) (by simp [hlevel])⟩
  have hvoice : (voiceTick p m v).voice = voiceOff w := by
    rw [voiceTick_of_active p m hactive]
    exact (moveOn_of_inactive (by rw [hoff, voiceOff_active])).trans hoff
  rw [hvoice]
  exact ⟨rfl, rfl, rfl⟩

end

/-- Settles O17: the two keys leave the voice in Release at level 0, and no rate keeps that from ending in the next
tick. -/
theorem keyOnThenKeyOffIsOffAfterOneTick : Obligations.KeyOnThenKeyOffIsOffAfterOneTick := by
  intro s i idx hnames
  obtain ⟨s1, hs1, -, hon⟩ := done_updVoice s keyOnVoice hnames
  obtain ⟨u, hu, -, hoff⟩ := done_updVoice s1 keyOffVoice hnames
  have hkeys : andThen (exec (.keyOn idx) s) (.keyOff idx) = .next u := by
    rw [exec_keyOn, hs1]
    exact (exec_keyOff idx s1).trans hu
  have hvoice : u.voices[i] = { keyOnVoice s.voices[i] with phase := .release, envCnt := 0 } := by
    rw [hoff, hon, keyOffVoice_of_held rfl (.inl rfl)]
  have hactive : u.voices[i].active = true := by rw [hvoice]; rfl
  have hphase : u.voices[i].phase = .release := by rw [hvoice]
  have hlevel : u.voices[i].level = 0 := by rw [hvoice]; rfl
  obtain ⟨hleft, hright⟩ := voiceTick_of_level_zero params u.mem hactive hlevel
  refine ⟨u, _, hkeys, exec_tick u, hphase, hlevel, hleft, hright, ?_⟩
  rw [mixTick_voice]
  exact voiceTick_release_of_level_zero params u.mem hactive hphase hlevel

/-! ### What the cursor's advance does to the phase (R137, R138) -/

/-- The sample cursor after this tick's whole samples, before a block end brings it back (R137). -/
def nextSample (v : Voice) : Nat := v.sidx.val + wholeSamples (v.pcount + BitVec.ofNat 16 (pitchStep v.pitch))

theorem advance_eq_nextSample (v : Voice) : advance v = if nextSample v < 28 then moved v else blockEnd (moved v) := rfl

theorem blockEnd_blkFlags (v : Voice) : (blockEnd v).blkFlags = v.blkFlags := by
  obtain ⟨-, h⟩ | ⟨-, -, h⟩ | ⟨-, -, h⟩ := blockEnd_cases v <;> simp only [h, voiceOff]

/-- A block end turns the voice off or keeps its phase and level (R138, R139). -/
theorem blockEnd_phase_cases (v : Voice) :
    ((blockEnd v).phase = v.phase ∧ (blockEnd v).level = v.level) ∨
    (loopEnd v.blkFlags = true ∧ loopRepeat v.blkFlags = false ∧
      (blockEnd v).phase = .off ∧ (blockEnd v).active = false ∧ (blockEnd v).level = 0) := by
  obtain ⟨-, h⟩ | ⟨-, -, h⟩ | ⟨hend, hrep, h⟩ := blockEnd_cases v
  · rw [h]; exact .inl ⟨rfl, rfl⟩
  · rw [h]; exact .inl ⟨rfl, rfl⟩
  · rw [h]; exact .inr ⟨hend, hrep, rfl, rfl, rfl⟩

theorem advance_phase_cases (v : Voice) :
    ((advance v).phase = v.phase ∧ (advance v).level = v.level) ∨
    (loopEnd (advance v).blkFlags = true ∧ loopRepeat (advance v).blkFlags = false ∧ 28 ≤ nextSample v ∧
      (advance v).phase = .off ∧ (advance v).active = false ∧ (advance v).level = 0) := by
  rw [advance_eq_nextSample]
  split
  · exact .inl ⟨rfl, rfl⟩
  · next hout =>
    obtain hkept | ⟨hend, hrep, hoff⟩ := blockEnd_phase_cases (moved v)
    · exact .inl hkept
    · rw [blockEnd_blkFlags]
      exact .inr ⟨hend, hrep, Nat.not_lt.mp hout, hoff⟩

/-! ### What the envelope does to the phase (R157) -/

/-- The level of one count depends on the voice's counter and level alone. -/
theorem envCount_level (q : PhaseParams) (v : Voice) : (envCount q v).level =
    if counterFull (envNext q v) = true then envLevel q.decreasing v.level.toInt (envMove q v).1 else v.level := by
  rw [envCount_eq]
  split <;> rfl

/-- An envelope step keeps the phase, or takes a line of the table of R151. -/
theorem envStep_phase_cases (v : Voice) : (envStep v).phase = v.phase ∨
    (v.phase = .attack ∧ (envStep v).phase = .decay ∧ 0x7FFF ≤ (envStep v).level.toInt) ∨
    (v.phase = .decay ∧ (envStep v).phase = .sustain ∧ (envStep v).level.toInt ≤ sustainTarget v.adsr1) ∨
    (v.phase = .release ∧ (envCount (releaseParams v.adsr2) v).level = 0 ∧
      (envStep v).phase = .off ∧ (envStep v).active = false ∧ (envStep v).level = 0) := by
  obtain ⟨-, heq⟩ | ⟨q, -, hq, heq⟩ := envStep_cases v
  · exact .inl (congrArg Voice.phase heq)
  rw [heq]
  obtain h | ⟨hphase, hlevel, h⟩ | ⟨hphase, hlevel, h⟩ | ⟨hphase, hlevel, h⟩ := envTransition_cases (envCount q v)
  · rw [h]
    exact .inl (envCount_phase q v)
  · rw [h]
    exact .inr (.inl ⟨(envCount_phase q v).symm.trans hphase, rfl, hlevel⟩)
  · rw [h]
    rw [envCount_adsr1] at hlevel
    exact .inr (.inr (.inl ⟨(envCount_phase q v).symm.trans hphase, rfl, hlevel⟩))
  · rw [h]
    rw [envCount_phase] at hphase
    rw [hphase, phaseParams_release] at hq
    cases hq
    exact .inr (.inr (.inr ⟨hphase, hlevel, rfl, rfl, rfl⟩))

theorem envStep_nextSample (v : Voice) : nextSample (envStep v) = nextSample v := by
  have hcount (q : PhaseParams) : nextSample (envCount q v) = nextSample v := by
    obtain ⟨_, -, h⟩ | ⟨_, h⟩ := envCount_cases q v <;> rw [h] <;> rfl
  obtain ⟨-, heq⟩ | ⟨q, -, -, heq⟩ := envStep_cases v
  · rw [heq]
  · rw [heq, ← hcount q]
    obtain h | ⟨-, -, h⟩ | ⟨-, -, h⟩ | ⟨-, -, h⟩ := envTransition_cases (envCount q v) <;> rw [h] <;> rfl

/-! ### What a tick does to the phase (R151, R180) -/

section
variable (p : Config.Params) (m : List Host.Cell) (v : Voice)

theorem fetchIfDue_nextSample : nextSample (fetchIfDue p m v) = nextSample v := by
  unfold fetchIfDue
  split <;> rfl

theorem fetchIfDue_adsr : (fetchIfDue p m v).adsr1 = v.adsr1 ∧ (fetchIfDue p m v).adsr2 = v.adsr2 := by
  unfold fetchIfDue
  split <;> exact ⟨rfl, rfl⟩

theorem envCount_fetchIfDue_level (q : PhaseParams) : (envCount q (fetchIfDue p m v)).level = (envCount q v).level := by
  rw [envCount_level, envCount_level]
  unfold fetchIfDue
  split <;> rfl

/-- The lines of R151's table that a tick can take, from voice `v` to voice `w`. -/
def TickLine (v w : Voice) : Prop :=
  (v.phase = .attack ∧ w.phase = .decay ∧ 0x7FFF ≤ w.level.toInt) ∨
  (v.phase = .decay ∧ w.phase = .sustain ∧ w.level.toInt ≤ sustainTarget v.adsr1) ∨
  (w.phase = .off ∧ w.active = false ∧ w.level = 0 ∧
    ((v.phase = .release ∧ (envCount (releaseParams v.adsr2) v).level = 0) ∨
      (loopEnd w.blkFlags = true ∧ loopRepeat w.blkFlags = false ∧ 28 ≤ nextSample v)))

variable {v} in
theorem TickLine.of_stop {w : Voice} (hend : loopEnd w.blkFlags = true) (hrep : loopRepeat w.blkFlags = false)
    (hout : 28 ≤ nextSample v) (hoff : w.phase = .off ∧ w.active = false ∧ w.level = 0) : TickLine v w :=
  .inr (.inr ⟨hoff.1, hoff.2.1, hoff.2.2, .inr ⟨hend, hrep, hout⟩⟩)

/-- The advance comes after the envelope and can only stop the voice; a voice that the envelope turns off does not
advance (R180, R185). -/
theorem moveOn_phase_cases : (moveOn v).phase = v.phase ∨ TickLine v (moveOn v) := by
  obtain hactive | hactive := Bool.eq_false_or_eq_true (envStep v).active
  case inr =>
    rw [moveOn_of_inactive hactive]
    obtain hsame | hdecay | hsustain | ⟨hphase, hlevel, hoff, hidle, hzero⟩ := envStep_phase_cases v
    · exact .inl hsame
    · exact .inr (.inl hdecay)
    · exact .inr (.inr (.inl hsustain))
    · exact .inr (.inr (.inr ⟨hoff, hidle, hzero, .inl ⟨hphase, hlevel⟩⟩))
  case inl =>
    rw [moveOn_of_active hactive]
    obtain ⟨hphase, hlevel⟩ | ⟨hend, hrep, hout, hoff⟩ := advance_phase_cases (envStep v)
    · unfold TickLine
      rw [hphase, hlevel]
      obtain hsame | hdecay | hsustain | ⟨-, -, -, hidle, -⟩ := envStep_phase_cases v
      · exact .inl hsame
      · exact .inr (.inl hdecay)
      · exact .inr (.inr (.inl hsustain))
      · cases hactive.symm.trans hidle
    · rw [envStep_nextSample] at hout
      exact .inr (.of_stop hend hrep hout hoff)

theorem voiceTick_phase_cases : (voiceTick p m v).voice.phase = v.phase ∨ TickLine v (voiceTick p m v).voice := by
  obtain hactive | hactive := Bool.eq_false_or_eq_true v.active
  · rw [voiceTick_of_active p m hactive]
    obtain ⟨hadsr1, hadsr2⟩ := fetchIfDue_adsr p m v
    have hcases := moveOn_phase_cases (fetchIfDue p m v)
    simp only [TickLine, fetchIfDue_phase, hadsr1, hadsr2, fetchIfDue_nextSample, envCount_fetchIfDue_level] at hcases
    exact hcases
  · rw [voiceTick_of_inactive p m hactive]
    exact .inl rfl

end

/-! ### What the other instructions do to the phase -/

theorem headerVoice_phase (p : Config.Params) (m : List Host.Cell) (f : BitVec 3) (sh : BitVec 4) (v : Voice) :
    (headerVoice p m f sh v).phase = v.phase := by
  unfold headerVoice
  split <;> rfl

theorem keyOffVoice_phase_cases (v : Voice) : (keyOffVoice v).phase = v.phase ∨
    ((keyOffVoice v).phase = .release ∧ v.active = true ∧
      (v.phase = .attack ∨ v.phase = .decay ∨ v.phase = .sustain)) := by
  obtain h | ⟨hactive, hheld, h⟩ := keyOffVoice_cases v
  · exact .inl (congrArg Voice.phase h)
  · rw [h]
    exact .inr ⟨rfl, hactive, hheld⟩

theorem loopFlags_flagBits : ∀ start rep fin : Bool,
    loopStart (flagBits start rep fin) = start ∧ loopRepeat (flagBits start rep fin) = rep ∧
      loopEnd (flagBits start rep fin) = fin := by
  decide

theorem flagsVoice_phase_cases (start rep fin : Bool) (v : Voice) :
    (flagsVoice (flagBits start rep fin) v).phase = v.phase ∨
    (fin = true ∧ rep = false ∧ (flagsVoice (flagBits start rep fin) v).phase = .off ∧
      (flagsVoice (flagBits start rep fin) v).active = false ∧ (flagsVoice (flagBits start rep fin) v).level = 0) := by
  obtain ⟨-, hrep, hend⟩ := loopFlags_flagBits start rep fin
  unfold flagsVoice
  split
  · obtain ⟨hphase, -⟩ | hstop := blockEnd_phase_cases (latchFlags (flagBits start rep fin) v)
    · exact .inl hphase
    · rw [latchFlags_blkFlags, hrep, hend] at hstop
      exact .inr hstop
  · exact .inl rfl

/-- Settles O43: each thing that an instruction can do to a voice keeps the phase or takes the line of R151's table that
is its own. -/
theorem phaseTransitionsAreComplete : Obligations.PhaseTransitionsAreComplete := by
  intro i s t j h hne
  rw [← execWith_params] at h
  have hchange := execWith_voice h j
  generalize s.voices[j] = v at *
  generalize t.voices[j] = w at *
  cases hchange with
  | unchanged | registers => exact absurd rfl hne
  | header => exact absurd (headerVoice_phase ..) hne
  | keyOn hnames => exact .inl ⟨rfl, rfl, _, rfl, hnames⟩
  | keyOff hnames =>
    obtain ⟨hrelease, hactive, hheld⟩ := (keyOffVoice_phase_cases v).resolve_left hne
    exact .inr (.inl ⟨hrelease, hactive, hheld, .inl ⟨_, rfl, hnames⟩⟩)
  | allKeyOff =>
    obtain ⟨hrelease, hactive, hheld⟩ := (keyOffVoice_phase_cases v).resolve_left hne
    exact .inr (.inl ⟨hrelease, hactive, hheld, .inr rfl⟩)
  | tick =>
    obtain hdecay | hsustain | ⟨hoff, hidle, hzero, hcause⟩ :=
      (voiceTick_phase_cases params s.mem v).resolve_left hne
    · exact .inr (.inr (.inl ⟨rfl, hdecay⟩))
    · exact .inr (.inr (.inr (.inl ⟨rfl, hsustain⟩)))
    · refine .inr (.inr (.inr (.inr ⟨fun hv => hne (hoff.trans hv.symm), hoff, hidle, hzero, ?_⟩)))
      obtain ⟨hrelease, hlevel⟩ | hstop := hcause
      · exact .inl ⟨rfl, hrelease, _, phaseParams_release _ _, hlevel⟩
      · exact .inr (.inl ⟨rfl, hstop⟩)
  | @flags _ ign start rep fin hi =>
    obtain ⟨rfl, rfl, hoff, hidle, hzero⟩ := (flagsVoice_phase_cases start rep fin v).resolve_left hne
    have hcause : i = .adpcmFlagsStop j ign start := hi
    refine .inr (.inr (.inr (.inr ⟨fun hv => hne (hoff.trans hv.symm), hoff, hidle, hzero, ?_⟩)))
    exact .inr (.inr ⟨ign, start, hcause⟩)

end Sys2Proof.Machine
end

section
/-! PROOFS. The sample stream: silent blocks (R112), the interpolator (R135, R136) and the rate of play (R141). -/

namespace Sys2Proof.Machine

/-! ### Zero nibbles (R112, R116) -/

section
variable (p : Config.Params) (shift filter : Nat)

/-- What makes a zero nibble decode to 0 and the next one too: no predictor, or no prediction. -/
def Quiet (prev1 prev2 : I16) : Prop := (prev1 = 0 ∧ prev2 = 0) ∨ (p.filterPos filter = 0 ∧ p.filterNeg filter = 0)

variable {p filter} {prev1 prev2 : I16}

theorem Quiet.decodeSample (h : Quiet p filter prev1 prev2) : decodeSample p shift filter 0 prev1 prev2 = 0 := by
  obtain ⟨rfl, rfl⟩ | ⟨hpos, hneg⟩ := h
  · simp [Machine.decodeSample]
  · simp [Machine.decodeSample, hpos, hneg]

/-- The next predictor pair is as quiet: its new sample is 0. -/
theorem Quiet.next (h : Quiet p filter prev1 prev2) : Quiet p filter 0 prev1 :=
  h.imp_left fun hzero => ⟨rfl, hzero.1⟩

theorem Quiet.decodeNibbles (n : Nat) (h : Quiet p filter prev1 prev2) :
    decodeNibbles p shift filter (List.replicate n 0) prev1 prev2 = List.replicate n 0 := by
  induction n generalizing prev1 prev2 with
  | zero => rfl
  | succ n ih => rw [List.replicate_succ, Machine.decodeNibbles, h.decodeSample, ih h.next, List.replicate_succ]

end

theorem nibbles_replicate_zero (n : Nat) : nibbles (List.replicate n 0) = List.replicate (2 * n) 0 := by
  induction n with
  | zero => rfl
  | succ n ih => rw [List.replicate_succ, nibbles, ih]; rfl

theorem decodeBlock_zero {p : Config.Params} {f : BitVec 3} {p1 p2 : I16} (h : Quiet p (effFilter f) p1 p2)
    (sh : BitVec 4) : decodeBlock p f sh (Vector.replicate 14 0) p1 p2 = (Vector.replicate 28 0, 0, 0) := by
  have hsamples : decodeSamples p (effShift p sh) (effFilter f) (Vector.replicate 14 0) p1 p2 =
      Vector.replicate 28 0 := by
    refine Vector.toList_inj.1 ?_
    rw [Vector.toList_replicate, ← h.decodeNibbles (effShift p sh), ← nibbles_replicate_zero 14,
      ← Vector.toList_replicate]
    rfl
  simp only [decodeBlock, hsamples, Vector.getElem_replicate]

/-- Settles O29: both premises are a quiet predictor, which every zero nibble keeps. -/
theorem zeroNibblesDecodeToSilence : Obligations.ZeroNibblesDecodeToSilence := fun _ _ sh _ _ =>
  ⟨decodeBlock_zero (.inl ⟨rfl, rfl⟩) sh, fun hpos hneg => decodeBlock_zero (.inr ⟨hpos, hneg⟩) sh⟩

/-! ### The interpolator (R135, R136) -/

/-- The interpolation index is bits 11:4 of the counter (R134). -/
theorem interpIndex_eq (cnt : U16) : interpIndex cnt = cnt.toNat / 16 % 256 := toNat_extractLsb'_eq_div_mod cnt 4 8

/-- R136's bound: in every row of the table the weights' magnitudes sum to less than 32768. -/
def GaussBounded (p : Config.Params) : Prop := ∀ n, n < 256 →
  |p.gauss (255 - n)| + |p.gauss (511 - n)| + |p.gauss (256 + n)| + |p.gauss n| < 32768

/-- The interpolator's sum over the four samples up to the cursor. -/
def windowSum (p : Config.Params) (v : Voice) : Int :=
  gaussSum p (interpIndex v.pcount) (window v)[v.sidx.val] (window v)[v.sidx.val + 1] (window v)[v.sidx.val + 2]
    (window v)[v.sidx.val + 3]

theorem interpolate_eq (p : Config.Params) (v : Voice) : interpolate p v = sat16 (windowSum p v / 32768) := by
  rw [← asr_15]
  rfl

theorem abs_toInt_i16_le (x : I16) : |x.toInt| ≤ 32768 :=
  abs_le.2 ⟨le_toInt_i16 x, (toInt_i16_le x).trans (by decide)⟩

/-- One term of the sum: a sample's magnitude is at most 32768. -/
theorem abs_mul_toInt_le (g : Int) (x : I16) : |g * x.toInt| ≤ |g| * 32768 := by
  rw [abs_mul]
  exact mul_le_mul_of_nonneg_left (abs_toInt_i16_le x) (abs_nonneg g)

theorem abs_gaussSum_le (p : Config.Params) (n : Nat) (a b c d : I16) :
    |gaussSum p n a b c d| ≤
      (|p.gauss (255 - n)| + |p.gauss (511 - n)| + |p.gauss (256 + n)| + |p.gauss n|) * 32768 := by
  have ha := abs_mul_toInt_le (p.gauss (255 - n)) a
  have hb := abs_mul_toInt_le (p.gauss (511 - n)) b
  have hc := abs_mul_toInt_le (p.gauss (256 + n)) c
  have hd := abs_mul_toInt_le (p.gauss n) d
  have h3 := abs_add_le (p.gauss (255 - n) * a.toInt) (p.gauss (511 - n) * b.toInt)
  have h2 := abs_add_le (p.gauss (255 - n) * a.toInt + p.gauss (511 - n) * b.toInt) (p.gauss (256 + n) * c.toInt)
  have h1 := abs_add_le (p.gauss (255 - n) * a.toInt + p.gauss (511 - n) * b.toInt + p.gauss (256 + n) * c.toInt)
    (p.gauss n * d.toInt)
  unfold gaussSum
  linarith

/-- Within R136's bound the clamp changes nothing. -/
theorem interpolate_of_gaussBounded {p : Config.Params} (h : GaussBounded p) (v : Voice) :
    interpolate p v = windowSum p v / 32768 := by
  have hrow := h (interpIndex v.pcount) (by rw [interpIndex_eq]; omega)
  have hsum : |windowSum p v| ≤ 32767 * 32768 := (abs_gaussSum_le ..).trans (by omega)
  obtain ⟨hlow, hhigh⟩ := abs_le.1 hsum
  rw [interpolate_eq, sat16_of_mem (by omega) (by omega)]

theorem gaussBounded_params : GaussBounded params := by
  unfold GaussBounded
  decide +kernel

/-- An entry of the window, oldest first: the carry, then the block's samples (R135). -/
theorem toInt_getElem_window (v : Voice) {k : Nat} (hk : k < 31) : (window v)[k].toInt =
    if h : k < 3 then (v.carry[k]).toInt else if h' : k - 3 < 28 then (v.dec[k - 3]).toInt else 0 := by
  have happend : (window v)[k] = if h : k < 3 then v.carry[k] else v.dec[k - 3] :=
    Vector.getElem_append (xs := v.carry) (ys := v.dec) hk
  rw [happend]
  split
  · rfl
  · rw [dif_pos (by omega)]

/-- Settles O31: the model's sum is the weighted sum over the window, and its clamp changes nothing within the bound. -/
theorem interpolateIsTheWeightedSum : Obligations.InterpolateIsTheWeightedSum := by
  unfold Obligations.InterpolateIsTheWeightedSum
  intro bounded weighted
  have hweighted (p : Config.Params) (v : Voice) : weighted p v = windowSum p v / 32768 := by
    have := v.sidx.isLt
    simp only [weighted, windowSum, gaussSum, interpIndex_eq, toInt_getElem_window]
    rfl
  refine ⟨fun p v hbounded => ?sum, fun p v => ?clamped, gaussBounded_params⟩
  case sum => rw [hweighted, interpolate_of_gaussBounded hbounded]
  case clamped => rw [hweighted, interpolate_eq, sat16_eq_max_min]

/-! ### The rate of play (R137, R141) -/

@[simp] theorem advance_pitch (v : Voice) : (advance v).pitch = v.pitch := congrArg (·.2.1) (advance_hostRegs v)

section
variable {v : Voice} (h : v.pcount.toNat < 0x1000)
include h

theorem toNat_advance_pcount : (advance v).pcount.toNat = (v.pcount.toNat + pitchStep v.pitch) % 0x1000 := by
  have hmoved : (moved v).pcount.toNat = (v.pcount.toNat + pitchStep v.pitch) % 0x1000 := by
    rw [moved_eq h, BitVec.toNat_ofNat]
    omega
  obtain heq | heq := advance_cases v
  · rw [heq, hmoved]
  · rw [heq, blockEnd_pcount, hmoved]

theorem val_advance_sidx :
    (advance v).sidx.val = (v.sidx.val + (v.pcount.toNat + pitchStep v.pitch) / 0x1000) % 28 := by
  have hmoved : (moved v).sidx.val = (v.sidx.val + (v.pcount.toNat + pitchStep v.pitch) / 0x1000) % 28 := by
    rw [moved_eq h]
    rfl
  obtain heq | heq := advance_cases v
  · rw [heq, hmoved]
  · rw [heq, blockEnd_sidx, hmoved]

end

theorem iterate_advance_pitch (v : Voice) (T : Nat) : (advance^[T] v).pitch = v.pitch := by
  induction T with
  | zero => rfl
  | succ T ih => rw [Function.iterate_succ_apply', advance_pitch, ih]

/-- Settles O33: by induction on the number of advances, the whole part and the fraction of one sum. -/
theorem rateOfPlay : Obligations.RateOfPlay := by
  intro v T hfrac
  change _ = (v.pcount.toNat + T * pitchStep v.pitch) % 0x1000 ∧
    _ = (v.sidx.val + (v.pcount.toNat + T * pitchStep v.pitch) / 0x1000) % 28
  induction T with
  | zero =>
    have := v.sidx.isLt
    simp only [Function.iterate_zero, id_eq, Nat.zero_mul, Nat.add_zero]
    omega
  | succ T ih =>
    obtain ⟨hcnt, hidx⟩ := ih
    have hlt : (advance^[T] v).pcount.toNat < 0x1000 := hcnt ▸ Nat.mod_lt _ (by decide)
    rw [Function.iterate_succ_apply', toNat_advance_pcount hlt, val_advance_sidx hlt, hcnt, hidx,
      iterate_advance_pitch, Nat.succ_mul, ← Nat.add_assoc]
    generalize v.pcount.toNat + T * pitchStep v.pitch = total
    omega

end Sys2Proof.Machine
end

section
/-! PROOFS. The range of a voice's output, mixing as a sum over voices run alone (R194), and what does not feed back. -/

namespace Sys2Proof.Machine

/-! ### The range of a voice's output (R181, R182) -/

/-- Of two factors in sixteen bits, one short of the lower end, the product keeps off the lower end too. -/
theorem abs_mulQ15_le {a b : Int} (ha : |a| ≤ 32768) (hb : |b| ≤ 32767) : |mulQ15 a b| ≤ 32767 := by
  have hprod : |a * b| ≤ 32768 * 32767 := by
    rw [abs_mul]
    exact mul_le_mul ha hb (abs_nonneg b) (by decide)
  obtain ⟨hlow, hhigh⟩ := abs_le.1 hprod
  rw [mulQ15_eq_div]
  exact abs_le.2 ⟨by omega, by omega⟩

theorem mulQ15_comm (a b : Int) : mulQ15 a b = mulQ15 b a := by rw [mulQ15, mulQ15, mul_comm]

section
variable (p : Config.Params) (m : List Host.Cell) {v : Voice} (h : v.Inv)
include h

theorem abs_interpolate_mul_level_le : |mulQ15 (interpolate p v) v.level.toInt| ≤ 32767 := by
  obtain ⟨hlow, hhigh⟩ := interpolate_bounds p v
  have hlevel : |v.level.toInt| ≤ 32767 := by
    rw [abs_of_nonneg h.level_nonneg]
    exact toInt_i16_le v.level
  exact abs_mulQ15_le (abs_le.2 ⟨hlow, by omega⟩) hlevel

theorem abs_voiceTick_le : |(voiceTick p m v).left| ≤ 32767 ∧ |(voiceTick p m v).right| ≤ 32767 := by
  obtain hactive | hactive := Bool.eq_false_or_eq_true v.active
  · have henv := abs_interpolate_mul_level_le p (h.fetchIfDue p m)
    simp only [voiceTick, hactive, if_true, mulQ15_comm _ (BitVec.toInt (fetchIfDue p m v).volL),
      mulQ15_comm _ (BitVec.toInt (fetchIfDue p m v).volR)]
    exact ⟨abs_mulQ15_le (abs_toInt_i16_le _) henv, abs_mulQ15_le (abs_toInt_i16_le _) henv⟩
  · simp [voiceTick_of_inactive p m hactive]

end

/-- Settles O48: the sample by the clamp, the envelope by the invariants, and each product by its factors. -/
theorem voiceOutputFitsSixteenBits : Obligations.VoiceOutputFitsSixteenBits := by
  intro p m v h
  obtain ⟨hleft, hright⟩ := abs_voiceTick_le p m h
  obtain ⟨hleft1, hleft2⟩ := abs_le.1 hleft
  obtain ⟨hright1, hright2⟩ := abs_le.1 hright
  exact ⟨hleft1, hleft2, hright1, hright2⟩

/-! ### A voice run alone (R194) -/

section
variable (p : Config.Params) (s : State) (j : Fin 24)

theorem solo_mem : (s.solo j).mem = s.mem := by rw [State.solo]

theorem solo_voice (i : Fin 24) : (s.solo j).voices[i] = if i = j then s.voices[i] else voiceOff s.voices[i] := by
  simp [State.solo]

/-- A quantity that is 0 of an idle voice, summed over the voices of which one runs alone. -/
theorem sum_solo (f : Voice → Int) (hidle : ∀ v, f (voiceOff v) = 0) :
    ∑ i : Fin 24, f (s.solo j).voices[i] = f s.voices[j] := by
  rw [Finset.sum_eq_single j]
  · rw [solo_voice, if_pos rfl]
  · intro i _ hij
    rw [solo_voice, if_neg hij, hidle]
  · exact fun hj => absurd (Finset.mem_univ j) hj

theorem voiceTick_voiceOff (m : List Host.Cell) (v : Voice) :
    voiceTick p m (voiceOff v) = { voice := voiceOff v, left := 0, right := 0 } :=
  voiceTick_of_inactive p m (voiceOff_active v)

/-- What fits sixteen bits is not clamped. -/
theorem max_min_of_abs_le {x : Int} (h : |x| ≤ 32767) : max (-32768) (min 32767 x) = x := by
  obtain ⟨hlow, hhigh⟩ := abs_le.1 h
  omega

variable {p s} (h : s.InvWith p)
include h

theorem toInt_solo_dryL :
    (mixTick p (s.solo j)).latches.dryL.toInt = (voiceTick p s.mem s.voices[j]).left := by
  rw [mixTick_dryL, toInt_satI16_sumVoices, solo_mem,
    sum_solo s j (fun v => (voiceTick p s.mem v).left) fun v => by rw [voiceTick_voiceOff]]
  exact max_min_of_abs_le (abs_voiceTick_le p s.mem (h.voices j)).1

theorem toInt_solo_dryR :
    (mixTick p (s.solo j)).latches.dryR.toInt = (voiceTick p s.mem s.voices[j]).right := by
  rw [mixTick_dryR, toInt_satI16_sumVoices, solo_mem,
    sum_solo s j (fun v => (voiceTick p s.mem v).right) fun v => by rw [voiceTick_voiceOff]]
  exact max_min_of_abs_le (abs_voiceTick_le p s.mem (h.voices j)).2

end

/-- Settles O49: a voice alone puts its own output on the dry bus, unclamped, and ticks as it does among the others. -/
theorem mixIsTheSumOfIsolatedVoices : Obligations.MixIsTheSumOfIsolatedVoices := by
  intro p s h
  refine ⟨_, _, rfl, fun j => rfl, ?dryL, ?dryR, fun j => ?voice⟩
  case dryL =>
    simp only [toInt_solo_dryL _ h]
    rw [mixTick_dryL, toInt_satI16_sumVoices]
  case dryR =>
    simp only [toInt_solo_dryR _ h]
    rw [mixTick_dryR, toInt_satI16_sumVoices]
  case voice =>
    change (mixTick p s).voices[j] = (mixTick p (s.solo j)).voices[j]
    rw [mixTick_voice, mixTick_voice, solo_voice, if_pos rfl, solo_mem]

/-! ### What does not feed back -/

section
variable (p : Config.Params) {s s' : State} (hvoices : s.voices = s'.voices) (hmem : s.mem = s'.mem)
include hvoices hmem

/-- The voices and the two buses depend on the voices and the sample memory alone. -/
theorem mixTick_dry_congr : (mixTick p s).voices = (mixTick p s').voices ∧
    (mixTick p s).latches.dryL = (mixTick p s').latches.dryL ∧
    (mixTick p s).latches.dryR = (mixTick p s').latches.dryR ∧
    (mixTick p s).latches.revinL = (mixTick p s').latches.revinL ∧
    (mixTick p s).latches.revinR = (mixTick p s').latches.revinR := by
  simp only [mixTick, hvoices, hmem, and_self]

/-- The reverb unit's part of a tick depends on the unit besides. -/
theorem sendReverb_congr (hrev : s.rev = s'.rev) : sendReverb p s = sendReverb p s' := by
  obtain ⟨-, -, -, hl, hr⟩ := mixTick_dry_congr p hvoices hmem
  rw [sendReverb, hl, hr, hrev, sendReverb]

end

/-- Settles O50: neither congruence mentions the wet level, the master volume or the latches. -/
theorem outputStageDoesNotFeedBack : Obligations.OutputStageDoesNotFeedBack := by
  intro s s' hvoices hmem
  obtain ⟨hv, hdl, hdr, hrl, hrr⟩ := mixTick_dry_congr params hvoices hmem
  refine ⟨_, _, exec_tick s, exec_tick s', hv, hdl, hdr, hrl, hrr, fun hrev => ?_⟩
  have hsend := sendReverb_congr params hvoices hmem hrev
  exact ⟨congrArg WetOut.rev hsend, congrArg WetOut.left hsend, congrArg WetOut.right hsend⟩

end Sys2Proof.Machine
end

section
/-! PROOFS. The reverb unit: its filters (R201 to R204), its core step (R205 to R212) and its silence after a clear
(R214). -/

namespace Sys2Proof.Machine

/-! ### The histories (R201) -/

section
variable {n : Nat} (h : Vector I16 (n + 1)) (x : I16)

theorem getElem_shiftIn {k : Nat} (hk : k < n) : (shiftIn h x)[k] = h[k + 1] := by
  simp [shiftIn, hk]

theorem getElem_shiftIn_last : (shiftIn h x)[n] = x := by
  simp [shiftIn]

end

/-! ### The filters (R202, R204) -/

section
variable (p : Config.Params)

theorem firSum_eq_sum_range (stride k : Nat) (l : List I16) :
    firSum p stride k l = ∑ i ∈ Finset.range l.length, p.fir39 (stride * (k + i)) * (l.getD i 0).toInt := by
  induction l generalizing k with
  | nil => rfl
  | cons x xs ih =>
    rw [firSum, ih, List.length_cons, Finset.sum_range_succ', add_comm]
    simp [Nat.add_assoc, Nat.add_comm 1]

/-- The sum of a filter over a history, entry by entry. -/
theorem firSum_toList {n : Nat} (stride : Nat) (h : Vector I16 n) :
    firSum p stride 0 h.toList = ∑ k : Fin n, p.fir39 (stride * k.val) * (h[k]).toInt := by
  rw [firSum_eq_sum_range, Vector.length_toList, Finset.sum_range]
  simp

theorem toInt_down (h : Vector I16 39) :
    (down p h).toInt = max (-32768) (min 32767 ((∑ k : Fin 39, p.fir39 k.val * (h[k]).toInt) / 32768)) := by
  rw [down, toInt_satI16, sat16_eq_max_min, asr_15, firSum_toList]
  simp only [Nat.one_mul]

theorem toInt_upFull (u : Vector I16 20) :
    (upFull p u).toInt =
      max (-32768) (min 32767 ((∑ k : Fin 20, p.fir39 (2 * k.val) * (u[k]).toInt) / 2 ^ 14)) := by
  rw [upFull, toInt_satI16, sat16_eq_max_min, firSum_toList, asr]

/-- The filter over the zero-stuffed sequence (R204), before scale and clamp. -/
def stuffedSum (core : Bool) (u : Vector I16 20) : Int := ∑ k ∈ Finset.range 39, p.fir39 k * stuffed core u k

theorem toInt_upGeneral (core : Bool) (u : Vector I16 20) :
    (upGeneral p core u).toInt = max (-32768) (min 32767 (2 * stuffedSum p core u / 2 ^ 15)) := by
  rw [upGeneral, toInt_satI16, sat16_eq_max_min]
  rfl

end

/-- A sum over an odd number of entries, the even ones apart from the odd ones. -/
theorem sum_range_even_odd (f : Nat → Int) (n : Nat) : ∑ k ∈ Finset.range (2 * n + 1), f k =
    (∑ i ∈ Finset.range (n + 1), f (2 * i)) + ∑ i ∈ Finset.range n, f (2 * i + 1) := by
  induction n with
  | zero => simp
  | succ n ih =>
    have hindex : 2 * (n + 1) = 2 * n + 1 + 1 := by omega
    rw [hindex, Finset.sum_range_succ, Finset.sum_range_succ, ih,
      Finset.sum_range_succ (fun i => f (2 * i)) (n + 1), Finset.sum_range_succ (fun i => f (2 * i + 1)) n, hindex]
    ring

/-! ### Half-band tables (R203) -/

/-- R203's property: odd taps 0 but the centre, which is 0x4000, and the table its own mirror image. -/
def HalfBandTable (p : Config.Params) : Prop :=
  (∀ k, k < 39 → k % 2 = 1 → k ≠ 19 → p.fir39 k = 0) ∧ p.fir39 19 = 0x4000 ∧
  (∀ k, k ≤ 38 → p.fir39 (38 - k) = p.fir39 k)

theorem halfBand_iff (p : Config.Params) : halfBand p = true ↔ HalfBandTable p := by
  simp only [halfBand, List.all_eq_true, List.mem_range, Bool.and_eq_true, Bool.or_eq_true, beq_iff_eq]
  constructor
  · intro hall
    refine ⟨fun k hk hodd hcentre => ?_, ?_, fun k hk => (hall k (by omega)).1⟩
    · have htap := (hall k hk).2.resolve_left (by omega)
      rwa [if_neg hcentre] at htap
    · have htap := (hall 19 (by decide)).2.resolve_left (by decide)
      rwa [if_pos rfl] at htap
  · rintro ⟨hodd, hcentre, hmirror⟩ k hk
    refine ⟨hmirror k (by omega), ?_⟩
    by_cases h2 : k % 2 = 0
    · exact .inl h2
    · right
      split
      · next h19 => rw [h19, hcentre]
      · next h19 => exact hodd k hk (by omega) h19

/-! ### The zero-stuffed sequence (R204) -/

theorem stuffed_even (core : Bool) (u : Vector I16 20) (i : Nat) :
    stuffed core u (2 * i) = if core then (u.toList.getD (19 - i) 0).toInt else 0 := by
  have hdiv : 2 * i / 2 = i := by omega
  rw [stuffed, hdiv, decide_eq_true (by omega)]
  cases core <;> rfl

theorem stuffed_odd (core : Bool) (u : Vector I16 20) (i : Nat) :
    stuffed core u (2 * i + 1) = if core then 0 else (u.toList.getD (19 - i) 0).toInt := by
  have hdiv : (2 * i + 1) / 2 = i := by omega
  rw [stuffed, hdiv, decide_eq_false (by omega)]
  cases core <;> rfl

section
variable {p : Config.Params} (h : HalfBandTable p) (u : Vector I16 20)

include h in
/-- In a tick that ran the core the even taps meet the twenty core outputs; by the mirror image, in either order. -/
theorem stuffedSum_core : stuffedSum p true u = ∑ k : Fin 20, p.fir39 (2 * k.val) * (u[k]).toInt := by
  obtain ⟨-, -, hmirror⟩ := h
  calc stuffedSum p true u
      = ∑ i ∈ Finset.range 20, p.fir39 (2 * i) * (u.toList.getD (20 - 1 - i) 0).toInt := by
        rw [stuffedSum, sum_range_even_odd _ 19]
        simp [stuffed_even, stuffed_odd]
    _ = ∑ i ∈ Finset.range 20, p.fir39 (38 - 2 * (20 - 1 - i)) * (u.toList.getD (20 - 1 - i) 0).toInt := by
        refine Finset.sum_congr rfl fun i hi => ?_
        rw [Finset.mem_range] at hi
        rw [show 38 - 2 * (20 - 1 - i) = 2 * i by omega]
    _ = ∑ i ∈ Finset.range 20, p.fir39 (38 - 2 * i) * (u.toList.getD i 0).toInt :=
        Finset.sum_range_reflect (fun i => p.fir39 (38 - 2 * i) * (u.toList.getD i 0).toInt) 20
    _ = ∑ i ∈ Finset.range 20, p.fir39 (2 * i) * (u.toList.getD i 0).toInt := by
        refine Finset.sum_congr rfl fun i hi => ?_
        rw [Finset.mem_range] at hi
        rw [hmirror (2 * i) (by omega)]
    _ = ∑ k : Fin 20, p.fir39 (2 * k.val) * (u[k]).toInt := by
        rw [Finset.sum_range]
        simp

include h in
/-- In a tick that did not run it only the centre tap is left, on the output before the last ten. -/
theorem stuffedSum_no_core : stuffedSum p false u = (0x4000 : Int) * (u[10]).toInt := by
  obtain ⟨hodd, hcentre, -⟩ := h
  calc stuffedSum p false u
      = ∑ i ∈ Finset.range 19, p.fir39 (2 * i + 1) * (u.toList.getD (19 - i) 0).toInt := by
        rw [stuffedSum, sum_range_even_odd _ 19]
        simp [stuffed_even, stuffed_odd]
    _ = p.fir39 (2 * 9 + 1) * (u.toList.getD (19 - 9) 0).toInt := by
        refine Finset.sum_eq_single_of_mem 9 (by simp) fun i hi hne => ?_
        rw [Finset.mem_range] at hi
        rw [hodd (2 * i + 1) (by omega) (by omega) (by omega), zero_mul]
    _ = (0x4000 : Int) * (u[10]).toInt := by
        rw [hcentre]
        simp

theorem max_min_toInt (x : I16) : max (-32768) (min 32767 x.toInt) = x.toInt := by
  have := le_toInt_i16 x
  have := toInt_i16_le x
  omega

/-- The value of the general form in numbers (R204). -/
def upValue (p : Config.Params) (core : Bool) (u : Vector I16 20) : Int :=
  max (-32768) (min 32767 (2 * stuffedSum p core u / 2 ^ 15))

include h in
theorem toInt_upFull_eq_upValue : (upFull p u).toInt = upValue p true u := by
  rw [toInt_upFull, upValue, stuffedSum_core h]
  congr 2
  omega

include h in
theorem toInt_centre_eq_upValue : (u[10]).toInt = upValue p false u := by
  have hscale (x : Int) : 2 * (0x4000 * x) / 2 ^ 15 = x := by omega
  rw [upValue, stuffedSum_no_core h, hscale, max_min_toInt]

/-- With every table up-sampling is the general form; for a half-band one that is the two cases of R201. -/
theorem toInt_upSample (p : Config.Params) (core : Bool) : (upSample p core u).toInt = upValue p core u := by
  cases hband : halfBand p
  · rw [upSample_general hband, toInt_upGeneral]
    rfl
  · have h := (halfBand_iff p).1 hband
    rw [upSample_halfBand hband]
    cases core
    · exact toInt_centre_eq_upValue h u
    · exact toInt_upFull_eq_upValue h u

end

/-! ### The two kinds of ticks (R201) -/

section
variable (p : Config.Params) (a b : I16) {r : Reverb}

/-- The core step of a tick that begins with phase 1, on the down-sampled histories. -/
def tickCore (r : Reverb) : WetOut :=
  coreStep (down p (shiftIn r.dsL a)) (down p (shiftIn r.dsR b)) (pushInput a b r)

theorem reverbTick_of_phase_false (h : r.phase = false) : reverbTick p a b r =
    { rev := { pushInput a b r with phase := true }
      left := upSample p false r.usL, right := upSample p false r.usR } := by
  simp [reverbTick, h]

theorem reverbTick_of_phase_true (h : r.phase = true) : reverbTick p a b r =
    { rev := { (tickCore p a b r).rev with
        usL := shiftIn r.usL (tickCore p a b r).left, usR := shiftIn r.usR (tickCore p a b r).right, phase := false }
      left := upSample p true (shiftIn r.usL (tickCore p a b r).left)
      right := upSample p true (shiftIn r.usR (tickCore p a b r).right) } := by
  simp [reverbTick, tickCore, h]

variable (r)

theorem reverbTick_dsL : (reverbTick p a b r).rev.dsL = shiftIn r.dsL a := by
  cases h : r.phase
  · rw [reverbTick_of_phase_false p a b h]; rfl
  · rw [reverbTick_of_phase_true p a b h]; exact (sameButCore_coreStep _ _ _).dsL

theorem reverbTick_dsR : (reverbTick p a b r).rev.dsR = shiftIn r.dsR b := by
  cases h : r.phase
  · rw [reverbTick_of_phase_false p a b h]; rfl
  · rw [reverbTick_of_phase_true p a b h]; exact (sameButCore_coreStep _ _ _).dsR

/-- The wet pair is up-sampled from the histories as the tick leaves them. -/
theorem reverbTick_wet : (reverbTick p a b r).left = upSample p r.phase (reverbTick p a b r).rev.usL ∧
    (reverbTick p a b r).right = upSample p r.phase (reverbTick p a b r).rev.usR := by
  cases h : r.phase
  · rw [reverbTick_of_phase_false p a b h]; exact ⟨rfl, rfl⟩
  · rw [reverbTick_of_phase_true p a b h]; exact ⟨rfl, rfl⟩

end

/-- The statement's form of one entry of the zero-stuffed sequence. -/
theorem stuffed_eq (core : Bool) (u : Vector I16 20) {k : Nat} (hk : k < 39) : stuffed core u k =
    if h : k / 2 < 20 then if (k % 2 = 0 ↔ core = true) then (u[19 - k / 2]).toInt else 0 else 0 := by
  have hentry : u.toList.getD (19 - k / 2) 0 = u[19 - k / 2] := by
    rw [List.getD_eq_getElem _ _ (by simp; omega), Vector.getElem_toList]
  rw [dif_pos (by omega), stuffed, hentry]
  cases core <;> simp

/-- Settles O52: up-sampling is the general form, whose value for a half-band table is that of the two cases. -/
theorem upSamplerIsTheGeneralForm : Obligations.UpSamplerIsTheGeneralForm := by
  unfold Obligations.UpSamplerIsTheGeneralForm
  intro halfBandTable general
  have hgeneral (p : Config.Params) (core : Bool) (u : Vector I16 20) : general p core u = upValue p core u := by
    simp only [general, upValue, stuffedSum]
    congr 4
    exact Finset.sum_congr rfl fun k hk => by rw [stuffed_eq core u (Finset.mem_range.1 hk)]
  refine ⟨(halfBand_iff params).1 halfBand_params, fun p a b r => ?_, fun p u h => ?_⟩
  · obtain ⟨hleft, hright⟩ := reverbTick_wet p a b r
    rw [hgeneral, hgeneral, hleft, hright]
    exact ⟨toInt_upSample _ p _, toInt_upSample _ p _⟩
  · rw [hgeneral, hgeneral]
    exact ⟨toInt_upFull_eq_upValue h u, toInt_centre_eq_upValue h u, toInt_upFull p u⟩

/-- Settles O51: the histories by what a shift leaves at each entry, the rest by the two kinds of ticks. -/
theorem reverbRunsEverySecondTick : Obligations.ReverbRunsEverySecondTick := by
  unfold Obligations.ReverbRunsEverySecondTick
  intro halfBandTable
  refine ⟨toInt_down, fun p a b r => ?_⟩
  intro t
  have hdsL : t.rev.dsL = shiftIn r.dsL a := reverbTick_dsL p a b r
  have hdsR : t.rev.dsR = shiftIn r.dsR b := reverbTick_dsR p a b r
  obtain ⟨hleft, hright⟩ : t.left = upSample p r.phase t.rev.usL ∧ t.right = upSample p r.phase t.rev.usR :=
    reverbTick_wet p a b r
  have hband (h : halfBandTable p) := upSample_halfBand ((halfBand_iff p).2 h)
  refine ⟨reverbTick_phase p a b r, fun k => ?shifted, ?newestL, ?newestR, fun h => ?idle, fun h => ?run⟩
  case shifted => rw [hdsL, hdsR]; exact ⟨getElem_shiftIn _ _ k.isLt, getElem_shiftIn _ _ k.isLt⟩
  case newestL => rw [hdsL]; exact getElem_shiftIn_last r.dsL a
  case newestR => rw [hdsR]; exact getElem_shiftIn_last r.dsR b
  case idle =>
    have ht : t.rev = { pushInput a b r with phase := true } :=
      congrArg WetOut.rev (reverbTick_of_phase_false p a b h)
    rw [hleft, hright, h, ht]
    refine ⟨?_, fun htable => ?_⟩
    · rw [← h]; rfl
    · rw [hband htable, hband htable]; exact ⟨rfl, rfl⟩
  case run =>
    intro c
    have hc : c = tickCore p a b r := by simp only [c, hdsL, hdsR]; rfl
    have ht : t.rev = { c.rev with usL := shiftIn r.usL c.left, usR := shiftIn r.usR c.right, phase := false } := by
      rw [hc]; exact congrArg WetOut.rev (reverbTick_of_phase_true p a b h)
    rw [hleft, hright, h, ht]
    refine ⟨fun k => ⟨getElem_shiftIn _ _ k.isLt, getElem_shiftIn _ _ k.isLt⟩, getElem_shiftIn_last r.usL c.left,
      getElem_shiftIn_last r.usR c.right, rfl, rfl, fun htable => ?_⟩
    rw [hband htable, hband htable]
    exact ⟨rfl, rfl⟩

end Sys2Proof.Machine
end

section
/-! PROOFS. The core step of the reverb unit (R205 to R212) as a function of the buffer, and the unit's silence after a
clear (R214). -/

namespace Sys2Proof.Machine

/-! ### The stages as functions of the buffer

Within a step everything but the buffer holds still, so each stage is a function of the buffer alone. -/

/-- The unit with another buffer. -/
def Reverb.withBuf (r : Reverb) (b : List (Nat × I16)) : Reverb := { r with buf := b }

section
variable (r : Reverb)

/-- The buffer after a reflection (R208). -/
def reflectBuf (m d : RevReg) (x : Int) (b : List (Nat × I16)) : List (Nat × I16) := (reflect m d x (r.withBuf b)).buf

/-- The buffer after an all-pass stage, and the stage's output (R211). -/
def passBuf (m d g : RevReg) (bc : List (Nat × I16) × Int) : List (Nat × I16) × Int :=
  ((allPass m d g bc.2 (r.withBuf bc.1)).rev.buf, (allPass m d g bc.2 (r.withBuf bc.1)).out)

/-- The buffer after the four reflections (R206). -/
def reflectionsBuf (dl dr : I16) : List (Nat × I16) :=
  let lin := mulQ15 (revCoeff r .vLIN) dl.toInt
  let rin := mulQ15 (revCoeff r .vRIN) dr.toInt
  reflectBuf r .mRDIFF .dLDIFF rin (reflectBuf r .mLDIFF .dRDIFF lin
    (reflectBuf r .mRSAME .dRSAME rin (reflectBuf r .mLSAME .dLSAME lin r.buf)))

/-- The left side's comb and all-pass stages, from the buffer the reflections left. -/
def leftSide (dl dr : I16) : List (Nat × I16) × Int :=
  passBuf r .mLAPF2 .dAPF2 .vAPF2 (passBuf r .mLAPF1 .dAPF1 .vAPF1
    (reflectionsBuf r dl dr, comb .mLCOMB1 .mLCOMB2 .mLCOMB3 .mLCOMB4 (r.withBuf (reflectionsBuf r dl dr))))

/-- The right side's stages, from the buffer the left side left. -/
def rightSide (dl dr : I16) : List (Nat × I16) × Int :=
  passBuf r .mRAPF2 .dAPF2 .vAPF2 (passBuf r .mRAPF1 .dAPF1 .vAPF1
    ((leftSide r dl dr).1, comb .mRCOMB1 .mRCOMB2 .mRCOMB3 .mRCOMB4 (r.withBuf (leftSide r dl dr).1)))

variable (m m1 m2 d g : RevReg) (x c : Int) (b : List (Nat × I16))

theorem reflect_withBuf : reflect m d x (r.withBuf b) = r.withBuf (reflectBuf r m d x b) := rfl

theorem allPass_withBuf : allPass m d g c (r.withBuf b) =
    { rev := r.withBuf (passBuf r m d g (b, c)).1, out := (passBuf r m d g (b, c)).2 } := by
  unfold passBuf
  rfl

theorem diffuse_withBuf : diffuse m1 m2 c (r.withBuf b) =
    { rev := r.withBuf (passBuf r m2 .dAPF2 .vAPF2 (passBuf r m1 .dAPF1 .vAPF1 (b, c))).1
      out := (passBuf r m2 .dAPF2 .vAPF2 (passBuf r m1 .dAPF1 .vAPF1 (b, c))).2 } := by
  rw [diffuse, allPass_withBuf]
  exact allPass_withBuf ..

theorem reflections_eq_withBuf (dl dr : I16) : reflections dl dr r = r.withBuf (reflectionsBuf r dl dr) := by
  have hself : r = r.withBuf r.buf := rfl
  unfold reflections
  dsimp only
  rw [congrArg (reflect _ _ _) hself]
  simp only [reflect_withBuf]
  rfl

variable {r} in
/-- The core step of a unit with a region, as a chain of buffers (R206, R212). -/
theorem coreStep_eq (dl dr : I16) (h : 0 < r.len) : coreStep dl dr r =
    { rev := { r with buf := (rightSide r dl dr).1, cur := (r.cur + 1) % r.len }
      left := BitVec.ofInt 16 (leftSide r dl dr).2, right := BitVec.ofInt 16 (rightSide r dl dr).2 } := by
  rw [coreStep, if_neg h.ne']
  simp only [reflections_eq_withBuf, diffuse_withBuf]
  rfl

/-! ### Where the stages write -/

variable {r m} {a : Nat} (h : a ≠ revAddr r (revOffset r m))
include h

theorem cellRead_reflectBuf_ne : cellRead (reflectBuf r m d x b) a = cellRead b a := cellRead_cellWrite_ne _ _ h

theorem cellRead_passBuf_ne (bc : List (Nat × I16) × Int) : cellRead (passBuf r m d g bc).1 a = cellRead bc.1 a :=
  cellRead_cellWrite_ne _ _ h

end

/-- The chain of buffers differs from the first one at the addresses of its eight writing stages alone. -/
theorem cellRead_rightSide_ne (dl dr : I16) {r : Reverb} {a : Nat}
    (h : ∀ m ∈ [RevReg.mLSAME, .mRSAME, .mLDIFF, .mRDIFF, .mLAPF1, .mLAPF2, .mRAPF1, .mRAPF2],
      a ≠ revAddr r (revOffset r m)) : cellRead (rightSide r dl dr).1 a = cellRead r.buf a := by
  have hreflections : cellRead (reflectionsBuf r dl dr) a = cellRead r.buf a := by
    simp only [reflectionsBuf, cellRead_reflectBuf_ne _ _ _ (h .mRDIFF (by decide)),
      cellRead_reflectBuf_ne _ _ _ (h .mLDIFF (by decide)), cellRead_reflectBuf_ne _ _ _ (h .mRSAME (by decide)),
      cellRead_reflectBuf_ne _ _ _ (h .mLSAME (by decide))]
  have hleft : cellRead (leftSide r dl dr).1 a = cellRead r.buf a := by
    rw [leftSide, cellRead_passBuf_ne _ _ (h .mLAPF2 (by decide)), cellRead_passBuf_ne _ _ (h .mLAPF1 (by decide)),
      hreflections]
  rw [rightSide, cellRead_passBuf_ne _ _ (h .mRAPF2 (by decide)), cellRead_passBuf_ne _ _ (h .mRAPF1 (by decide)),
    hleft]

/-! ### The outputs fit sixteen bits -/

theorem toInt_ofInt_passBuf (r : Reverb) (m d g : RevReg) (bc : List (Nat × I16) × Int) :
    (BitVec.ofInt 16 (passBuf r m d g bc).2).toInt = (passBuf r m d g bc).2 :=
  toInt_satI16 _

/-- Settles O53: the stages of the model are those of the statement, whose products and clamps are the model's. -/
theorem coreStepWritesEightAddresses : Obligations.CoreStepWritesEightAddresses := by
  intro dl dr r
  refine ⟨coreStep_disabled dl dr, fun h => ?frame, fun h => ?values⟩
  case frame =>
    rw [coreStep_eq dl dr h]
    exact ⟨rfl, rfl, fun a ha => cellRead_rightSide_ne dl dr ha⟩
  case values =>
    intro A V pos mul sat rd wr refl comb' pass b1 b2 l q
    have hmul : mul = mulQ15 := funext₂ fun a b => (mulQ15_eq_div a b).symm
    have hsat : sat = sat16 := funext fun x => (sat16_eq_max_min x).symm
    have hrefl : refl = reflectBuf r := by
      funext m d x b
      simp only [refl, wr, rd, hmul, hsat]
      rfl
    have hcomb : comb' = fun m1 m2 m3 m4 b => comb m1 m2 m3 m4 (r.withBuf b) := by
      funext m1 m2 m3 m4 b
      simp only [comb', rd, hmul, hsat]
      rfl
    have hpass : pass = passBuf r := by
      funext m d g bc
      simp only [pass, wr, rd, hmul, hsat, passBuf, allPass, toInt_satI16]
      rfl
    have hb2 : b2 = reflectionsBuf r dl dr := by simp only [b2, b1, hrefl, hmul]; rfl
    have hl : l = leftSide r dl dr := by simp only [l, hpass, hcomb, hb2]; rfl
    have hq : q = rightSide r dl dr := by simp only [q, hpass, hcomb, hl]; rfl
    rw [hl, hq, coreStep_eq dl dr h]
    exact ⟨rfl, toInt_ofInt_passBuf .., toInt_ofInt_passBuf ..⟩

/-! ### Silence (R214) -/

/-- A unit with nothing in its buffer and its histories, wherever its position and its phase are. -/
structure Reverb.Silent (r : Reverb) : Prop where
  buf : r.buf = []
  dsL : r.dsL = Vector.replicate 39 0
  dsR : r.dsR = Vector.replicate 39 0
  usL : r.usL = Vector.replicate 20 0
  usR : r.usR = Vector.replicate 20 0

theorem silent_clearReverb (r : Reverb) : (clearReverb r).Silent := ⟨rfl, rfl, rfl, rfl, rfl⟩

theorem shiftIn_zero (n : Nat) : shiftIn (Vector.replicate (n + 1) (0 : I16)) 0 = Vector.replicate (n + 1) 0 := by
  refine Vector.toList_inj.1 ?_
  calc (shiftIn (Vector.replicate (n + 1) (0 : I16)) 0).toList
      = List.replicate n 0 ++ [0] := by simp [shiftIn]
    _ = (Vector.replicate (n + 1) 0).toList := by rw [Vector.toList_replicate, List.replicate_succ']

theorem toInt_getD_replicate_zero (n k : Nat) : ((List.replicate n (0 : I16)).getD k 0).toInt = 0 := by
  rw [List.getD_eq_getElem?_getD, List.getElem?_replicate]
  split <;> rfl

section
variable (p : Config.Params)

theorem down_zero : down p (Vector.replicate 39 0) = 0 := by
  have hsum : firSum p 1 0 (List.replicate 39 0) = 0 := by
    rw [firSum_eq_sum_range]
    exact Finset.sum_eq_zero fun k _ => by rw [toInt_getD_replicate_zero, mul_zero]
  rw [down, Vector.toList_replicate, hsum, asr_zero_left, satI16_zero]

theorem stuffed_zero (core : Bool) (k : Nat) : stuffed core (Vector.replicate 20 0) k = 0 := by
  rw [stuffed, Vector.toList_replicate, toInt_getD_replicate_zero, ite_self]

theorem upSample_zero (core : Bool) : upSample p core (Vector.replicate 20 0) = 0 := by
  have hsum : stuffedSum p core (Vector.replicate 20 0) = 0 :=
    Finset.sum_eq_zero fun k _ => by rw [stuffed_zero, mul_zero]
  refine BitVec.eq_of_toInt_eq ?_
  rw [toInt_upSample, upValue, hsum]
  rfl

end

section
variable {r : Reverb} (h : r.buf = [])
include h

theorem revRead_empty (off : Int) : revRead r off = 0 := by
  rw [revRead, h]
  rfl

/-- Writing 0 into an empty buffer leaves it empty. -/
theorem revWriteBuf_empty (off : Int) : revWriteBuf r off 0#16 = r := by
  cases r; cases h; rfl

theorem reflect_empty (m d : RevReg) : reflect m d 0 r = r := by
  simp [reflect, revRead_empty h, revWriteBuf_empty h]

theorem allPass_empty (m d g : RevReg) : allPass m d g 0 r = { rev := r, out := 0 } := by
  simp [allPass, revRead_empty h, revWriteBuf_empty h]

theorem comb_empty (m1 m2 m3 m4 : RevReg) : comb m1 m2 m3 m4 r = 0 := by
  simp [comb, revRead_empty h]

theorem coreStep_empty : (coreStep 0 0 r).rev.buf = [] ∧ (coreStep 0 0 r).left = 0 ∧ (coreStep 0 0 r).right = 0 := by
  unfold coreStep
  split
  · exact ⟨h, rfl, rfl⟩
  · simp [reflections, diffuse, stepPosition, reflect_empty h, allPass_empty h, comb_empty h, h]

end

/-- A silent unit fed with silence stays silent and answers silence. -/
theorem Reverb.Silent.reverbTick {r : Reverb} (h : r.Silent) (p : Config.Params) :
    (reverbTick p 0 0 r).rev.Silent ∧ (reverbTick p 0 0 r).left = 0 ∧ (reverbTick p 0 0 r).right = 0 := by
  obtain ⟨hbuf, hdsL, hdsR, husL, husR⟩ := h
  cases hphase : r.phase
  case false =>
    rw [reverbTick_of_phase_false p 0 0 hphase, husL, husR, upSample_zero]
    exact ⟨⟨hbuf, hdsL ▸ shiftIn_zero 38, hdsR ▸ shiftIn_zero 38, husL, husR⟩, rfl, rfl⟩
  case true =>
    have hcore : tickCore p 0 0 r = coreStep 0 0 (pushInput 0 0 r) := by
      rw [tickCore, hdsL, hdsR, shiftIn_zero, down_zero]
    obtain ⟨hcbuf, hleft, hright⟩ := coreStep_empty (r := pushInput 0 0 r) hbuf
    have hsame := sameButCore_coreStep 0 0 (pushInput 0 0 r)
    rw [reverbTick_of_phase_true p 0 0 hphase, hcore, hleft, hright, husL, husR, shiftIn_zero, upSample_zero]
    refine ⟨⟨hcbuf, hsame.dsL.trans ?_, hsame.dsR.trans ?_, rfl, rfl⟩, rfl, rfl⟩
    · rw [pushInput_dsL, hdsL, shiftIn_zero]
    · rw [pushInput_dsR, hdsR, shiftIn_zero]

/-- Settles O54: by induction on the number of ticks since the clear. -/
theorem clearedReverbStaysSilent : Obligations.ClearedReverbStaysSilent := by
  intro p r n
  have hsilent : ((fun x => (reverbTick p 0 0 x).rev)^[n] (clearReverb r)).Silent := by
    induction n with
    | zero => exact silent_clearReverb r
    | succ n ih =>
      rw [Function.iterate_succ_apply']
      exact (ih.reverbTick p).1
  exact (hsilent.reverbTick p).2

end Sys2Proof.Machine
end

section
/-! PROOFS. The pipeline words: what a header byte, a flags byte and an envelope word do in their lane, and that the
fetch of a tick is made of the first two. -/

namespace Sys2Proof.Machine

/-- Every pipeline word completes, updates the voice of its lane and keeps the frame of that voice. -/
theorem done_setVoice (s : State) (i : Fin 24) (f : Voice → Voice) :
    ∃ t, done (setVoice s i f) .none = .next t ∧ FrameVoice s t i ∧ t.result = .none ∧ t.voices[i] = f s.voices[i] :=
  ⟨_, rfl, frameVoice_setVoice s i f .none, rfl, setVoice_voice_self s i f⟩

/-! ### Header words (R82, R83, R111, R132) -/

theorem exec_headerInstr (f : BitVec 3) (lane : Fin 24) (b : Bool) (sh : BitVec 4) (s : State) :
    exec (headerInstr f lane b sh) s = done (setVoice s lane (headerVoice params s.mem f sh)) .none := by
  obtain rfl | rfl | rfl | rfl | rfl | rfl | rfl | rfl := filter_cases f <;> rfl

section
variable (p : Config.Params) (m : List Host.Cell) (f : BitVec 3) (sh : BitVec 4) {v : Voice}

theorem headerVoice_of_due (hactive : v.active = true) (hblock : v.hasBlock = false) :
    headerVoice p m f sh v = loadBlock p f sh (blockData m v.curAddr.toNat) v := by
  simp [headerVoice, hactive, hblock]

theorem headerVoice_of_not_due (h : v.active = false ∨ v.hasBlock = true) : headerVoice p m f sh v = v := by
  obtain h | h := h <;> simp [headerVoice, h]

end

/-- A filter that acts as 4 is a header with filter 4 (R83). -/
theorem effFilter_clipped : ∀ f : BitVec 3, effFilter f = effFilter (if f.toNat ≤ 4 then f else 4) := by decide

theorem loadBlock_clipped (p : Config.Params) (f : BitVec 3) (sh : BitVec 4) (d : Vector Byte 14) (v : Voice) :
    loadBlock p f sh d v = loadBlock p (if f.toNat ≤ 4 then f else 4) sh d v := by
  simp only [loadBlock, decodeBlock, ← effFilter_clipped]

/-- Settles O55: the eight words are one word with `filter_raw` as an operand. -/
theorem headerWordsDecodeTheBlock : Obligations.HeaderWordsDecodeTheBlock := by
  unfold Obligations.HeaderWordsDecodeTheBlock
  intro word s i f b sh
  have hword : word f i b sh = headerInstr f i b sh := rfl
  obtain ⟨t, ht, hframe, hresult, hvoice⟩ := done_setVoice s i (headerVoice params s.mem f sh)
  have hexec : exec (word f i b sh) s = .next t := hword ▸ (exec_headerInstr f i b sh s).trans ht
  refine ⟨t, hexec, hframe, hresult, fun hactive hblock => ?due, fun h => ?idle⟩
  case due => rw [hvoice, headerVoice_of_due _ _ _ _ hactive hblock, loadBlock_clipped]
  case idle => rw [hvoice, headerVoice_of_not_due _ _ _ _ h]

/-- Settles O58: the header byte decodes to the header word with its own filter and shift, and the fetch is that word's
decode followed by the latch. -/
theorem fetchIsTheDecodedHeaderWord : Obligations.FetchIsTheDecodedHeaderWord := by
  intro s i hactive hblock
  let header := memByte s.mem s.voices[i].curAddr.toNat
  obtain ⟨t, ht, -, -, hvoice⟩ :=
    done_setVoice s i (headerVoice params s.mem (headerFilter header) (headerShift header))
  refine ⟨_, t, rfl, ?_, ?_⟩
  · rw [decodeHeader_eq_headerInstr]
    exact (exec_headerInstr ..).trans ht
  · rw [hvoice, headerVoice_of_due _ _ _ _ hactive hblock]
    rfl

/-! ### Flags words (R84, R133, R138, R139) -/

section
variable {v : Voice}

theorem flagsVoice_of_inactive (f : BitVec 3) (h : v.active = false) : flagsVoice f v = v := by
  simp [flagsVoice, h]

theorem flagsVoice_continue (h : v.active = true) (st rep : Bool) : flagsVoice (flagBits st rep false) v =
    { v with
      blkFlags := flagBits st rep false, loopAddr := if st then v.curAddr else v.loopAddr
      hasBlock := false, curAddr := v.curAddr + 16 } := by
  obtain ⟨hstart, -, hend⟩ := loopFlags_flagBits st rep false
  simp [flagsVoice, h, blockEnd, stopsVoice, latchFlags, hstart, hend]

theorem flagsVoice_loop (h : v.active = true) (st : Bool) : flagsVoice (flagBits st true true) v =
    { v with
      blkFlags := flagBits st true true, loopAddr := if st then v.curAddr else v.loopAddr
      hasBlock := false, curAddr := if st then v.curAddr else v.loopAddr } := by
  obtain ⟨hstart, hrep, hend⟩ := loopFlags_flagBits st true true
  simp [flagsVoice, h, blockEnd, stopsVoice, latchFlags, hstart, hrep, hend]

theorem flagsVoice_stop (h : v.active = true) (st : Bool) : flagsVoice (flagBits st false true) v =
    { v with
      blkFlags := flagBits st false true, loopAddr := if st then v.curAddr else v.loopAddr
      hasBlock := false, curAddr := if st then v.curAddr else v.loopAddr
      active := false, phase := .off, level := 0, envCnt := 0 } := by
  obtain ⟨hstart, hrep, hend⟩ := loopFlags_flagBits st false true
  simp [flagsVoice, h, blockEnd, stopsVoice, latchFlags, voiceOff, hstart, hrep, hend]

end

theorem exec_flagsInstr (lane : Fin 24) (g : BitVec 5) (st rep fin : Bool) (s : State) :
    exec (flagsInstr lane g st rep fin) s = done (setVoice s lane (flagsVoice (flagBits st rep fin))) .none := by
  cases fin <;> cases rep <;> rfl

/-- A flags word in its lane; what it does to an active voice is left open. -/
theorem exec_flagsInstr_spec (lane : Fin 24) (g : BitVec 5) (st rep fin : Bool) (s : State) {w : Voice}
    (hw : s.voices[lane].active = true → flagsVoice (flagBits st rep fin) s.voices[lane] = w) :
    ∃ t, exec (flagsInstr lane g st rep fin) s = .next t ∧ FrameVoice s t lane ∧ t.result = .none ∧
      (s.voices[lane].active = true → t.voices[lane] = w) ∧
      (s.voices[lane].active = false → t.voices[lane] = s.voices[lane]) := by
  obtain ⟨t, ht, hframe, hresult, hvoice⟩ := done_setVoice s lane (flagsVoice (flagBits st rep fin))
  refine ⟨t, (exec_flagsInstr ..).trans ht, hframe, hresult, fun h => ?_, fun h => ?_⟩
  · rw [hvoice, hw h]
  · rw [hvoice, flagsVoice_of_inactive _ h]

/-- Settles O56: the three words are one word with the flags as operands, and each of its three effects is a block end
after a latch. -/
theorem flagsWordsEndTheBlock : Obligations.FlagsWordsEndTheBlock := fun s i g st rep =>
  ⟨exec_flagsInstr_spec i g st rep false s fun h => flagsVoice_continue h st rep,
    exec_flagsInstr_spec i g st true true s fun h => flagsVoice_loop h st,
    exec_flagsInstr_spec i g st false true s fun h => flagsVoice_stop h st⟩

/-! ### Envelope words (R88, R89) -/

/-- Settles O57: the word written is the packed one, from which every field reads back. -/
theorem envelopeWordsFillTheirRegisters : Obligations.EnvelopeWordsFillTheirRegisters := by
  intro s i e d u sh5 st sh4 lv re rsh
  refine ⟨?adsr1, ?adsr2⟩
  case adsr1 =>
    obtain ⟨t, ht, hframe, hresult, hvoice⟩ :=
      done_setVoice s i fun v => { v with adsr1 := packAdsr1 e sh5 st sh4 lv }
    exact ⟨t, _, ht, hframe, hresult, hvoice, fields_packAdsr1 e sh5 st sh4 lv⟩
  case adsr2 =>
    obtain ⟨t, ht, hframe, hresult, hvoice⟩ :=
      done_setVoice s i fun v => { v with adsr2 := packAdsr2 e d u sh5 st re rsh }
    exact ⟨t, _, ht, hframe, hresult, hvoice, fields_packAdsr2 e d u sh5 st re rsh⟩

end Sys2Proof.Machine
end
